-- ==== Sys2Proof/Word.lean ====
section
/-! DEFINITION. The plainest types of the model: bytes, 16-bit values, station and channel numbers, the two kinds of set,
times and deadlines, temperatures. Operations on sets stand in Machine/Sets.lean. -/
namespace Sys2Proof

/-- One byte: demands, duties, fan floors and round numbers are bytes (00 "Demand and duty", "Round numbers"). -/
abbrev Byte := BitVec 8

/-- A 16-bit value: signatures, sample words, the frame check (R118, R122, R175). -/
abbrev Word16 := BitVec 16

/-- A station address 0..15 (00 "Terms"). -/
abbrev Station := Fin 16

/-- A sensor channel number 0..7 (00 "Terms"). -/
abbrev Channel := Fin 8

/-- A station set: station n is a member when bit n is one (R120). -/
abbrev StationSet := BitVec 16

/-- A channel set: channel n is a member when bit n is one (R120). -/
abbrev ChannelSet := BitVec 8

/-- A time, or a length of time, in milliseconds (00 "Times and deadlines"; log 1). -/
abbrev Millis := Nat

/-- A deadline: `none` is disarmed, `some t` is armed for time `t` (00 "Terms"). -/
abbrev Deadline := Option Millis

/-- A temperature in units of half a degree Celsius (00 "Temperatures"). -/
abbrev HalfDegrees := Int

end Sys2Proof
end

