-- ==== Sys2Proof/Syntax.lean ====
section
/-! DEFINITION. The commands of the block, one constructor per row of spec/opcode_table.json, and the types of their
operands: the nine frame kinds with their contents (06 section 6.2), the raw form of a frame, and small enumerations. -/
namespace Sys2Proof

/-- The two fans, A and B (R90). -/
inductive FanId where
  | a | b
  deriving DecidableEq, Repr

/-- A verdict in a round (00 "Terms"). A STATUS verdict of NONE is `none : Option Verdict`. -/
inductive Verdict where
  | concur | refuse
  deriving DecidableEq, Repr

/-- Where a node stands in the enclosure's round (R22): IDLE, OPEN, COMMITTED, HALTED. -/
inductive RoundState where
  | idle | opened | committed | halted
  deriving DecidableEq, Repr

/-- The four alarm events (R66). RISE and FALL are in the condition group, FAULT and RESTORE in the sensor group (R113). -/
inductive AlarmEvent where
  | rise | fall | fault | restore
  deriving DecidableEq, Repr

/-- The nine frame kinds (R110). -/
inductive FrameKind where
  | join | status | alarm | ack | propose | vote | withdraw | commit | leave
  deriving DecidableEq, Repr

/-- One ALARM record (06 section 6.2). -/
structure AlarmRecord where
  channel : Channel
  event : AlarmEvent
  needsAck : Bool
  reading : HalfDegrees
  deriving DecidableEq, Repr

/-- One ACK pair: a station and a channel set (R114). -/
structure AckPair where
  station : Station
  channels : ChannelSet
  deriving DecidableEq, Repr

/-- The fields of a STATUS (06 section 6.2, R112). -/
structure StatusFields where
  demand : Byte
  raised : ChannelSet
  unacked : ChannelSet
  faulted : ChannelSet
  fanAFailed : Bool
  fanBFailed : Bool
  critical : Bool
  shutdownHeld : Bool
  roundNumber : Byte
  roundState : RoundState
  verdict : Option Verdict
  proposers : StationSet
  signature : Word16
  deriving DecidableEq, Repr

/-- A frame by its contents, over what a STATUS carries: nothing while it is pending, its snapshot once it is in flight
(R112, R141). -/
inductive FrameOf (σ : Type) where
  | join (signature : Word16) (demand : Byte)
  | status (payload : σ)
  | alarm (records : List AlarmRecord)
  | ack (pairs : List AckPair)
  | propose (round : Byte) (channel : Channel) (reading : HalfDegrees)
  | vote (round : Byte) (verdict : Verdict)
  | withdraw (round : Byte)
  | commit (round : Byte) (concurSet : StationSet)
  | leave
  deriving DecidableEq, Repr

/-- A frame with its whole payload: in flight, or received. -/
abbrev Frame := FrameOf StatusFields

/-- A pending entry of the Transmit Queue: its STATUS holds no payload (R112, R141). -/
abbrev Pending := FrameOf Unit

/-- A frame as the envelope of R119 carries it, before its validity is tested. The length field is the number of payload
bytes: a receiver reads exactly as many as the field gives (R119, R137). -/
structure RawFrame where
  cls : BitVec 3
  source : BitVec 4
  kind : BitVec 4
  payload : List Byte
  deriving DecidableEq, Repr

/-- Why a reception fails (R137). -/
inductive ReceptionCause where
  | stuffViolation | endMarkDominant | checkMismatch
  deriving DecidableEq, Repr

/-- The commands of the block: one constructor per row of spec/opcode_table.json, in its order. -/
inductive Instr where
  /-- POWER_ON (R156). -/
  | powerOn
  /-- RESET_LINE_ASSERTED (R156). -/
  | resetLineAsserted
  /-- RESET_LINE_RELEASED (R156). -/
  | resetLineReleased
  /-- IMAGE_BYTE_ARRIVES (R172). `late`: the byte answers a read that has already failed, not the read in progress (log 8). -/
  | imageByteArrives (late : Bool) (value : Byte)
  /-- MEMORY_READ_REFUSED (R172): of the read in progress when it is taken (log 30). -/
  | memoryReadRefused
  /-- BYTE_DEADLINE_EXPIRES (R172). -/
  | byteDeadlineExpires
  /-- SAMPLE_WORD (R56), the word in the layout of R122. -/
  | sampleWord (word : Word16)
  /-- SAMPLE_DEADLINE_EXPIRES (R59). -/
  | sampleDeadlineExpires (channel : Channel)
  /-- TACH_EDGE (R99). -/
  | tachEdge (fan : FanId)
  /-- WINDOW_DEADLINE_EXPIRES (R98). -/
  | windowDeadlineExpires (fan : FanId)
  /-- FALL_DEADLINE_EXPIRES (R96). -/
  | fallDeadlineExpires (fan : FanId)
  /-- SILENCE_DEADLINE_EXPIRES (R8). -/
  | silenceDeadlineExpires (station : Station)
  /-- LOST_DEADLINE_EXPIRES (R9). -/
  | lostDeadlineExpires (station : Station)
  /-- RECEIVE_JOIN (R13). -/
  | receiveJoin (source : Station) (signature : Word16) (demand : Byte)
  /-- RECEIVE_STATUS (R14). -/
  | receiveStatus (source : Station) (fields : StatusFields)
  /-- RECEIVE_ALARM (R15). -/
  | receiveAlarm (source : Station) (records : List AlarmRecord)
  /-- RECEIVE_ACK (R71). -/
  | receiveAck (source : Station) (pairs : List AckPair)
  /-- RECEIVE_PROPOSE (R27). -/
  | receivePropose (source : Station) (round : Byte) (channel : Channel) (reading : HalfDegrees)
  /-- RECEIVE_VOTE (R32). -/
  | receiveVote (source : Station) (round : Byte) (verdict : Verdict)
  /-- RECEIVE_WITHDRAW (R39). -/
  | receiveWithdraw (source : Station) (round : Byte)
  /-- RECEIVE_COMMIT (R42). -/
  | receiveCommit (source : Station) (round : Byte) (concurSet : StationSet)
  /-- RECEIVE_LEAVE (R7). -/
  | receiveLeave (source : Station)
  /-- MALFORMED_FRAME_DISCARDED (R116). -/
  | malformedFrameDiscarded (frame : RawFrame)
  /-- RECEPTION_FAILURE (R137). -/
  | receptionFailure (cause : ReceptionCause)
  /-- IDLE_GAP_ELAPSED (R127): the wire has been recessive without interruption for this many bit periods (log 9). -/
  | idleGapElapsed (recessive : Nat)
  /-- BEGIN_TRANSMISSION (R128). `wire`: the levels the receive line carries from the start mark on while the node drives the
  start mark and the key, dominant `false` (R130, R132; logs 10 and 13). -/
  | beginTransmission (wire : List Bool)
  /-- ARBITRATION_LOST (R131). -/
  | arbitrationLost
  /-- TRANSMIT_FAULT (R133). `wire`: the levels the receive line carried after those of BEGIN_TRANSMISSION (R132, log 13). -/
  | transmitFault (wire : List Bool)
  /-- FRAME_COMPLETES (R134). -/
  | frameCompletes
  /-- LISTEN_DEADLINE_EXPIRES (R159). -/
  | listenDeadlineExpires
  /-- RECOVERY_DEADLINE_EXPIRES (R164). -/
  | recoveryDeadlineExpires
  /-- STATUS_DEADLINE_EXPIRES (R162). -/
  | statusDeadlineExpires
  /-- ROUND_DEADLINE_EXPIRES (R41). -/
  | roundDeadlineExpires
  /-- GRACE_DEADLINE_EXPIRES (R45). -/
  | graceDeadlineExpires
  /-- NODE (R180). -/
  | node
  /-- ROUND (R181). -/
  | round
  /-- PEER (R182), its argument byte as given. -/
  | peer (station : Byte)
  /-- CHANNEL (R183), its argument byte as given. -/
  | channel (channel : Byte)
  /-- FAN (R184), its argument byte as given. -/
  | fan (fan : Byte)
  /-- ACK_LOCAL (R185). -/
  | ackLocal (channels : ChannelSet)
  /-- ACK_REMOTE (R185), its station byte as given. -/
  | ackRemote (station : Byte) (channels : ChannelSet)
  /-- LEAVE (R186). -/
  | leave
  /-- UNKNOWN_COMMAND (R179), the command code byte as given. -/
  | unknownCommand (code : Byte)
  /-- START_MARK_RECEIVED (R127). -/
  | startMarkReceived
  /-- FAULTED_FRAME_RECEPTION_ENDS (R133). -/
  | faultedFrameReceptionEnds
  deriving DecidableEq, Repr

end Sys2Proof
end

