-- ==== Sys2Proof/Decode.lean ====
section
/-! DEFINITION. The command a word spells by the table's bits. -/
namespace Sys2Proof

/-- No row of spec/opcode_table.json gives bits (98: n_rows_with_fixed 0, n_rows_with_fields 0), so no word spells a command
(log 22). -/
def decodeTableWord (_nbits _w : Nat) : Option Instr := none

end Sys2Proof
end

