-- ==== Sys2Proof/Machine/Sets.lean ====
section
/-! DEFINITION. Sets of stations and of channels as the bits R120 gives them: bit n is one when n is a member. -/
namespace Sys2Proof.Machine

/-- Membership of a set of `w` possible members (R120). -/
def member {w : Nat} (x : BitVec w) (a : Fin w) : Bool := x.getLsbD a.val

/-- The set of one member. -/
def single {w : Nat} (a : Fin w) : BitVec w := BitVec.ofNat w (2 ^ a.val)

/-- Adding a member; one already there leaves the set as it was. -/
def insertMember {w : Nat} (x : BitVec w) (a : Fin w) : BitVec w := x ||| single a

/-- Removing a member; one not there leaves the set as it was. -/
def removeMember {w : Nat} (x : BitVec w) (a : Fin w) : BitVec w := x &&& ~~~ single a

/-- The set of the members that satisfy `p`. -/
def membersWhere {w : Nat} (p : Fin w → Bool) : BitVec w :=
  (List.finRange w).foldl (fun x a => if p a then insertMember x a else x) 0

/-- The number of members of a set. -/
def cardinality {w : Nat} (x : BitVec w) : Nat := (List.finRange w).countP (member x)

end Sys2Proof.Machine
end

