-- ==== Sys2Proof/Config.lean ====
section
/-! DEFINITION. What the spec fixes for every part as a number, and the two free values: choices the spec leaves open,
opaque so that no proof can lean on one of them. -/
namespace Sys2Proof.Config

/-- The byte deadline: 10 ms from the beginning of the read of each byte (R172). -/
def byteInterval : Millis := 10

/-- The bytes of the start image (R123, R171). -/
def imageBytes : Nat := 192

/-- The attempts at reading the image (R172). -/
def maxAttempts : Nat := 3

/-- The fall interval of R90, in milliseconds. -/
def fallInterval : Millis := 500

/-- The fan check window of R90, in milliseconds. -/
def windowInterval : Millis := 1000

/-- Stall and recovery persistence, in windows (R90). -/
def persistence : Nat := 3

/-- The idle gap: eleven consecutive recessive bit periods (R127). -/
def idleGap : Nat := 11

/-- The count a receiver needs that did not enter WAIT at the end of an end mark (R127). -/
def longGap : Nat := 16

/-- The transmit fault limit (R133). -/
def faultLimit : Nat := 8

/-- The stations an ACK and the ACK in flight may name together (R114). -/
def ackStationLimit : Nat := 4

/-- The largest time a diagnostic item reports short of "disarmed" (R179). -/
def maxReportedTime : Nat := 65534

/-- FREE VALUE (log 6): at the n-th free choice, whether the Round Controller takes the entry into ACTIVE before the change
of P that the entry causes. R18, R53 and R155 leave the order open. -/
opaque roundTakesEntryFirst : Nat → Bool

/-- FREE VALUE (log 2): at the n-th free choice, which of the deadlines that have fallen due is taken. The spec gives the
outcome for either order and fixes none (00 "Times and deadlines"). -/
opaque dueOrder : Nat → Nat

end Sys2Proof.Config
end

