-- ==== Sys2Proof/Machine/State.lean ====
section
/-! DEFINITION. The whole state of the node as plain data, block by block (00 "Block Diagram"), its reset, and the reasons
a step could stop. -/
namespace Sys2Proof.Machine

/-! ## The start image, once loaded (06 R123) -/

/-- A reporting mode (R60, section 3.5). `reserved` is code 3, which only a channel that is not enabled can hold
(R123, R174, R183; log 20). -/
inductive ReportMode where
  | level | edge | once | reserved
  deriving DecidableEq, Repr

/-- The configuration fields of a watch record (R60), as the image's bits stand: on an enabled channel their ranges are
those of R174, on one that is not enabled they are whatever the image holds. -/
structure ChannelConfig where
  enabled : Bool
  mode : ReportMode
  corroborating : Bool
  criticalEnabled : Bool
  persistence : Nat
  hysteresis : Nat
  highLimit : HalfDegrees
  criticalHigh : HalfDegrees
  criticalRelease : HalfDegrees
  t0 : HalfDegrees
  t1 : HalfDegrees
  t2 : HalfDegrees
  t3 : HalfDegrees
  d0 : Byte
  d1 : Byte
  d2 : Byte
  d3 : Byte
  deriving DecidableEq, Repr

/-- A coupling weight (R91). -/
inductive Weight where
  | none | quarter | half | full
  deriving DecidableEq, Repr

/-- One fan's configuration: sixteen coupling weights and a fan floor (R90). -/
structure FanConfig where
  weights : Vector Weight 16
  floor : Byte
  deriving DecidableEq, Repr

/-- The configuration the start image gives (R123). -/
structure StartImage where
  address : Station
  k : Nat
  kMin : Nat
  statCode : Nat
  silenceMultiple : Nat
  lostCode : Nat
  roundSeconds : Nat
  graceSeconds : Nat
  sampleSeconds : Nat
  trust : Bool
  fallStep : Nat
  stallFloor : Nat
  fanA : FanConfig
  fanB : FanConfig
  channels : Vector ChannelConfig 8
  deriving DecidableEq, Repr

/-! ## The Image Loader (R171) -/

/-- The configuration fault codes 1..8 (R173). -/
inductive FaultCode where
  | memorySilent | checksum | stationAddress | quorum | timers | channelLimits | curve | fanParameters
  deriving DecidableEq, Repr

structure Loader where
  faultCode : Option FaultCode
  attempt : Nat
  byteDeadline : Deadline
  bytes : List Byte
  deriving DecidableEq, Repr

/-! ## The Life Cycle Controller (R154) -/

inductive NodeState where
  | loading | configFault | listening | joining | active | linkOff | conflict | quiet
  deriving DecidableEq, Repr

structure LifeCycle where
  nodeState : NodeState
  listenDeadline : Deadline
  recoveryDeadline : Deadline
  statusDeadline : Deadline
  leavePending : Bool
  deriving DecidableEq, Repr

/-! ## The Channel Monitor (R60) -/

inductive Reading where
  | absent
  | value (r : HalfDegrees)
  | fault
  deriving DecidableEq, Repr

inductive Condition where
  | normal | raised
  deriving DecidableEq, Repr

inductive ReportState where
  | clear | unacked
  deriving DecidableEq, Repr

inductive CriticalState where
  | calm | critical
  deriving DecidableEq, Repr

/-- The state fields of a watch record (R60). -/
structure WatchRecord where
  reading : Reading
  condition : Condition
  riseCount : Nat
  fallCount : Nat
  reportState : ReportState
  lastReported : Condition
  unreportedRise : Bool
  faulted : Bool
  criticalState : CriticalState
  criticalCount : Nat
  deriving DecidableEq, Repr

/-! ## The Peer Table (R1) -/

inductive Presence where
  | absent | present | silent | departed
  deriving DecidableEq, Repr

inductive SignatureState where
  | unknown | isMatch | mismatch
  deriving DecidableEq, Repr

/-- The round fields of a station's last STATUS (R1). -/
structure ReportedRound where
  number : Byte
  state : RoundState
  verdict : Option Verdict
  proposers : StationSet
  deriving DecidableEq, Repr

structure PeerEntry where
  presence : Presence
  signatureState : SignatureState
  signature : Option Word16
  demand : Byte
  raised : ChannelSet
  unacked : ChannelSet
  faulted : ChannelSet
  fanAFailed : Bool
  fanBFailed : Bool
  critical : Bool
  shutdownHeld : Bool
  reported : Option ReportedRound
  lastHeard : Option Millis
  silenceDeadline : Deadline
  lostDeadline : Deadline
  deriving DecidableEq, Repr

/-! ## The Round Controller (R22) -/

structure Reason where
  station : Station
  channel : Channel
  reading : HalfDegrees
  deriving DecidableEq, Repr

structure RoundRecord where
  state : RoundState
  number : Byte
  lastClosed : Byte
  proposers : StationSet
  reason : Option Reason
  votes : Vector (Option Verdict) 16
  ownVerdict : Option Verdict
  roundDeadline : Deadline
  graceDeadline : Deadline
  concurSet : Option StationSet
  deriving DecidableEq, Repr

/-! ## The Airflow Controller (R90) -/

inductive FanCondition where
  | ok | failed
  deriving DecidableEq, Repr

/-- The forcing conditions, in the order of the table of R94. -/
inductive Forcing where
  | nodeState | roundDecided | shutdownLatch | otherFan
  deriving DecidableEq, Repr

/-- The recorded reason for a target (R109). -/
inductive TargetReason where
  | forced (condition : Forcing)
  | floor
  | station (address : Station)
  deriving DecidableEq, Repr

structure FanRecord where
  target : Byte
  duty : Byte
  fallDeadline : Deadline
  windowDeadline : Deadline
  edgeSeen : Bool
  windowQualifies : Bool
  stallCount : Nat
  goodCount : Nat
  condition : FanCondition
  reason : TargetReason
  deriving DecidableEq, Repr

/-! ## The Link Controller (R125) -/

inductive ReceiverState where
  | wait | idle | receiving
  deriving DecidableEq, Repr

structure Link where
  receiver : ReceiverState
  /-- WAIT was entered at the end of an end mark, so the idle gap suffices (R127). -/
  afterEndMark : Bool
  /-- What the receiver is taking is the node's own transmission: a frame the node began and has not lost, whether it goes
  on, has faulted or is abandoned (R133, R139; log 11). -/
  ownOnWire : Bool
  inFlight : Option Frame
  /-- The levels the receive line carries from the start mark of the node's latest transmission on, as BEGIN_TRANSMISSION
  gives them, dominant `false`; read only while a frame is in flight (R130, R132; log 13). -/
  levels : List Bool
  faults : Nat
  deriving DecidableEq, Repr

/-! ## The Diagnostic Port (R178) -/

inductive Transaction where
  | request (bytes : List Byte)
  | response (bytes : List Byte) (read : Nat)
  deriving DecidableEq, Repr

/-! ## The state -/

structure State where
  /-- The present time (log 1). -/
  now : Millis
  /-- The RESET line is asserted (R156). -/
  resetLine : Bool
  loader : Loader
  /-- The configuration, once a good image is loaded (R176). -/
  image : Option StartImage
  life : LifeCycle
  sampleDeadlines : Vector Deadline 8
  channels : Vector WatchRecord 8
  localDemand : Byte
  /-- The standing verdict (R86). -/
  standing : Verdict
  peers : Vector PeerEntry 16
  /-- The eligible count P (R17). -/
  eligible : Nat
  round : RoundRecord
  shutdownLatch : Bool
  fanA : FanRecord
  fanB : FanRecord
  /-- The Transmit Queue, oldest entry first (R141, R142). -/
  queue : List Pending
  link : Link
  port : Option Transaction
  /-- The model's own field: how many free choices have been taken (log 19). -/
  choices : Nat
  /-- The commands waiting, first in first out (log 26). -/
  pending : List Instr
  deriving DecidableEq, Repr

/-- Reasons a command could end in a fault. There is none: the spec names no event that stops the part (log 21). -/
inductive Fault
  deriving DecidableEq, Repr

/-- Reasons a command could be refused. -/
inductive Refusal where
  /-- Raised by an arm of `exec` whose command has no meaning yet; safe. No arm does (log 21). -/
  | notModelled (mnemonic : String)
  deriving DecidableEq, Repr

/-! ## Reset values, block by block -/

/-- R171. -/
def Loader.reset : Loader :=
  { faultCode := none, attempt := 1, byteDeadline := none, bytes := [] }

/-- R154. -/
def LifeCycle.reset : LifeCycle :=
  { nodeState := .loading, listenDeadline := none, recoveryDeadline := none, statusDeadline := none,
    leavePending := false }

/-- R60. -/
def WatchRecord.reset : WatchRecord :=
  { reading := .absent, condition := .normal, riseCount := 0, fallCount := 0, reportState := .clear,
    lastReported := .normal, unreportedRise := false, faulted := false, criticalState := .calm,
    criticalCount := 0 }

/-- R1. -/
def PeerEntry.reset : PeerEntry :=
  { presence := .absent, signatureState := .unknown, signature := none, demand := 0, raised := 0,
    unacked := 0, faulted := 0, fanAFailed := false, fanBFailed := false, critical := false,
    shutdownHeld := false, reported := none, lastHeard := none, silenceDeadline := none,
    lostDeadline := none }

/-- R22. -/
def RoundRecord.reset : RoundRecord :=
  { state := .idle, number := 0, lastClosed := 0, proposers := 0, reason := none,
    votes := Vector.replicate 16 none, ownVerdict := none, roundDeadline := none, graceDeadline := none,
    concurSet := none }

/-- R90, R109. -/
def FanRecord.reset : FanRecord :=
  { target := 255, duty := 255, fallDeadline := none, windowDeadline := none, edgeSeen := false,
    windowQualifies := false, stallCount := 0, goodCount := 0, condition := .ok,
    reason := .forced .nodeState }

/-- R125. -/
def Link.reset : Link :=
  { receiver := .wait, afterEndMark := false, ownOnWire := false, inFlight := none, levels := [], faults := 0 }

/-- The node after a power-on reset, before the Image Loader begins its first read (R1, R17, R22, R58, R60, R76, R86, R90,
R125, R141, R154, R171, R178; log 4). -/
def State.reset : State :=
  { now := 0, resetLine := false, loader := Loader.reset, image := none, life := LifeCycle.reset,
    sampleDeadlines := Vector.replicate 8 none, channels := Vector.replicate 8 WatchRecord.reset,
    localDemand := 255, standing := .refuse, peers := Vector.replicate 16 PeerEntry.reset, eligible := 0,
    round := RoundRecord.reset, shutdownLatch := false, fanA := FanRecord.reset, fanB := FanRecord.reset,
    queue := [], link := Link.reset, port := none, choices := 0, pending := [] }

end Sys2Proof.Machine
end

