-- ==== Sys2Proof/Machine/Ops.lean ====
section
/-! DEFINITION. The named operations over the state that every block uses: the configuration in force and its times, the
entries, records and fans by number, deadlines, and the own entry's mirrors (R4). -/
namespace Sys2Proof.Machine

/-! ## Configuration in force -/

/-- What configuration reads as while none is loaded; no rule reads it then (R60, R90; log 5). -/
def StartImage.blank : StartImage :=
  { address := 0, k := 0, kMin := 0, statCode := 0, silenceMultiple := 0, lostCode := 0, roundSeconds := 0,
    graceSeconds := 0, sampleSeconds := 0, trust := false, fallStep := 0, stallFloor := 0,
    fanA := { weights := Vector.replicate 16 .none, floor := 0 },
    fanB := { weights := Vector.replicate 16 .none, floor := 0 },
    channels := Vector.replicate 8
      { enabled := false, mode := .level, corroborating := false, criticalEnabled := false, persistence := 0,
        hysteresis := 0, highLimit := 0, criticalHigh := 0, criticalRelease := 0, t0 := 0, t1 := 0, t2 := 0,
        t3 := 0, d0 := 0, d1 := 0, d2 := 0, d3 := 0 } }

/-- T_stat = code × 250 ms (R123). -/
def StartImage.statPeriod (g : StartImage) : Millis := g.statCode * 250

/-- The silence limit, M_sil × T_stat (R2). -/
def StartImage.silenceLimit (g : StartImage) : Millis := g.silenceMultiple * g.statPeriod

/-- T_lost = code × 10 s (R123). -/
def StartImage.lostInterval (g : StartImage) : Millis := g.lostCode * 10000

/-- The listen interval, twice the silence limit (R154). -/
def StartImage.listenInterval (g : StartImage) : Millis := 2 * g.silenceLimit

/-- The recovery interval, 4 × T_stat (R154). -/
def StartImage.recoveryInterval (g : StartImage) : Millis := 4 * g.statPeriod

/-- T_round (R123). -/
def StartImage.roundTimeout (g : StartImage) : Millis := g.roundSeconds * 1000

/-- T_grace (R123). -/
def StartImage.graceInterval (g : StartImage) : Millis := g.graceSeconds * 1000

/-- T_samp (R123). -/
def StartImage.sampleTimeout (g : StartImage) : Millis := g.sampleSeconds * 1000

/-- The signature: the seven shared parameter bytes, each times its position, summed modulo 65536 (R175). -/
def StartImage.signature (g : StartImage) : Word16 :=
  BitVec.ofNat 16 (g.k + 2 * g.kMin + 3 * g.statCode + 4 * g.silenceMultiple + 5 * g.lostCode
    + 6 * g.roundSeconds + 7 * g.graceSeconds)

/-- The configuration in force. -/
def State.cfg (s : State) : StartImage := s.image.getD StartImage.blank

/-- The node's own station address. -/
def State.own (s : State) : Station := s.cfg.address

/-- `a` is the address of the own entry; there is none until the image is loaded (R3). -/
def State.isOwn (s : State) (a : Station) : Bool := s.image.isSome && a == s.own

/-- From LISTENING onward: neither LOADING nor CONFIG_FAULT (R156, R158). -/
def NodeState.runs : NodeState → Bool
  | .loading | .configFault => false
  | .listening | .joining | .active | .linkOff | .conflict | .quiet => true

/-- The node is in a state from LISTENING onward. -/
def State.running (s : State) : Bool := s.life.nodeState.runs

/-- The node is ACTIVE. -/
def State.isActive (s : State) : Bool := s.life.nodeState == .active

/-! ## Deadlines -/

/-- An armed deadline whose time has come; a disarmed one never expires (00 "Times and deadlines"). -/
def expired (d : Deadline) (now : Millis) : Bool :=
  match d with
  | none => false
  | some t => decide (t ≤ now)

/-! ## Entries, records and fans by number -/

def State.peer (s : State) (a : Station) : PeerEntry := s.peers[a]

def State.setPeer (s : State) (a : Station) (e : PeerEntry) : State := { s with peers := s.peers.set a e }

def State.watch (s : State) (c : Channel) : WatchRecord := s.channels[c]

def State.setWatch (s : State) (c : Channel) (w : WatchRecord) : State := { s with channels := s.channels.set c w }

def State.channelCfg (s : State) (c : Channel) : ChannelConfig := s.cfg.channels[c]

def State.fan (s : State) : FanId → FanRecord
  | .a => s.fanA
  | .b => s.fanB

def State.setFan (s : State) : FanId → FanRecord → State
  | .a, r => { s with fanA := r }
  | .b, r => { s with fanB := r }

def State.fanCfg (s : State) : FanId → FanConfig
  | .a => s.cfg.fanA
  | .b => s.cfg.fanB

/-- The partner of a fan (R104). -/
def otherFan : FanId → FanId
  | .a => .b
  | .b => .a

/-- A fan whose state is FAILED. -/
def State.fanFailed (s : State) (f : FanId) : Bool := (s.fan f).condition == .failed

/-! ## The own entry's mirrors (R4) -/

/-- The channels whose records satisfy `p`. -/
def State.channelsWhere (s : State) (p : WatchRecord → Bool) : ChannelSet := membersWhere fun c => p (s.watch c)

/-- Changes the own entry. -/
def State.updateOwn (s : State) (f : PeerEntry → PeerEntry) : State := s.setPeer s.own (f (s.peer s.own))

/-- Raised, unacked and faulted sets follow the watch records (R4). -/
def State.mirrorSets (s : State) : State :=
  s.updateOwn fun e =>
    { e with
      raised := s.channelsWhere (·.condition == .raised)
      unacked := s.channelsWhere (·.reportState == .unacked)
      faulted := s.channelsWhere (·.faulted) }

/-- The two fan-failed flags follow the fan states (R4, R103). -/
def State.mirrorFans (s : State) : State :=
  s.updateOwn fun e => { e with fanAFailed := s.fanFailed .a, fanBFailed := s.fanFailed .b }

/-- The shutdown held flag follows the latch (R4, R45). -/
def State.mirrorLatch (s : State) : State :=
  s.updateOwn fun e => { e with shutdownHeld := s.shutdownLatch }

end Sys2Proof.Machine
end

