-- ==== Sys2Proof/Machine/Flags.lean ====
section
/-! DEFINITION. What is computed from the state and stored nowhere, or computed afresh whenever its inputs change: node
critical, corroboration, the standing verdict, the demands, the eligible count, C and Q, and the ALERT and SHUTDOWN lines. -/
namespace Sys2Proof.Machine

/-! ## Node critical and the standing verdict (04) -/

/-- A channel is CRITICAL. -/
def State.isCritical (s : State) (c : Channel) : Bool := (s.watch c).criticalState == .critical

/-- Node critical: at least one channel is CRITICAL (R82). -/
def State.nodeCritical (s : State) : Bool := (List.finRange 8).any s.isCritical

/-- A channel corroborates (R84). -/
def State.corroborates (s : State) (c : Channel) : Bool :=
  (s.channelCfg c).enabled && (s.channelCfg c).corroborating && (s.watch c).condition == .raised
    && !(s.watch c).faulted

/-- The standing verdict as its inputs stand (R86). -/
def State.standingNow (s : State) : Verdict :=
  if s.nodeCritical || (List.finRange 8).any s.corroborates || s.cfg.trust then .concur else .refuse

/-- The critical flag of the own entry follows node critical (R4, R83). -/
def State.mirrorCritical (s : State) : State := s.updateOwn fun e => { e with critical := s.nodeCritical }

/-! ## Demand (R75, R76) -/

/-- One straight segment of the demand curve, rounded down (R75). -/
def interpolate (d d' : Byte) (t t' x : HalfDegrees) : Byte :=
  BitVec.ofNat 8 (d.toNat + (((d'.toNat - d.toNat : Nat) : Int) * (x - t) / (t' - t)).toNat)

/-- The demand curve at reading `x`, by the table of R75. -/
def ChannelConfig.curve (k : ChannelConfig) (x : HalfDegrees) : Byte :=
  if x ≤ k.t0 then k.d0
  else if x < k.t1 then interpolate k.d0 k.d1 k.t0 k.t1 x
  else if x = k.t1 then k.d1
  else if x < k.t2 then interpolate k.d1 k.d2 k.t1 k.t2 x
  else if x = k.t2 then k.d2
  else if x < k.t3 then interpolate k.d2 k.d3 k.t2 k.t3 x
  else k.d3

/-- The channel demand of an enabled channel; a channel that is not enabled has none (R75). -/
def channelDemand (k : ChannelConfig) (w : WatchRecord) : Option Byte :=
  if k.enabled then
    match w.reading with
    | .absent | .fault => some 255
    | .value x => some (k.curve x)
  else none

/-- The larger of two bytes, as unsigned numbers. -/
def maxByte (x y : Byte) : Byte := if x.toNat ≤ y.toNat then y else x

/-- The local demand as the records stand: the largest channel demand, 0 if no channel is enabled (R76). -/
def State.localDemandNow (s : State) : Byte :=
  (List.finRange 8).foldl (fun m c => maxByte m ((channelDemand (s.channelCfg c) (s.watch c)).getD 0)) 0

/-! ## The Peer Table's two products (R17, R19) -/

/-- An entry other than the own entry that is PRESENT with signature state MATCH (R17). -/
def State.countsInP (s : State) (a : Station) : Bool :=
  !s.isOwn a && (s.peer a).presence == .present && (s.peer a).signatureState == .isMatch

/-- The eligible count P as the table and the node state stand (R17). -/
def State.eligibleNow (s : State) : Nat :=
  (if s.isActive then 1 else 0) + (List.finRange 16).countP s.countsInP

/-- The effective demand of a station (R19). -/
def State.effectiveDemand (s : State) (a : Station) : Byte :=
  if s.isOwn a then (s.peer a).demand
  else
    match (s.peer a).presence with
    | .present => if (s.peer a).fanAFailed || (s.peer a).fanBFailed then 255 else (s.peer a).demand
    | .silent => 255
    | .absent | .departed => 0

/-! ## C and Q (R35) -/

/-- The other stations whose CONCUR counts: held in the votes map, and the entry is MATCH (R35). -/
def State.concurring (s : State) : StationSet :=
  membersWhere fun a => s.round.votes[a] == some .concur && (s.peer a).signatureState == .isMatch

/-- The node's own concurrence counts (R35). -/
def State.ownConcurs (s : State) : Bool := s.isActive && s.round.ownVerdict == some .concur

/-- The concur count C (R35). -/
def State.concurCount (s : State) : Nat := cardinality s.concurring + (if s.ownConcurs then 1 else 0)

/-- The effective quorum Q = max(Kmin, min(K, P)) (R35). -/
def State.quorum (s : State) : Nat := max s.cfg.kMin (min s.cfg.k s.eligible)

/-! ## Output lines (R46, R90, R187) -/

/-- The SHUTDOWN output (R46). -/
def State.shutdownLine (s : State) : Bool := s.shutdownLatch

/-- The value a fan output presents (R90). -/
def State.fanOutput (s : State) (f : FanId) : Byte := (s.fan f).duty

/-- The ALERT output (R187). -/
def State.alert (s : State) : Bool :=
  (List.finRange 8).any (fun c => (s.watch c).condition == .raised || (s.watch c).reportState == .unacked
      || (s.watch c).faulted)
    || s.fanFailed .a || s.fanFailed .b || s.round.state != .idle || s.shutdownLatch

end Sys2Proof.Machine
end

