-- ==== Sys2Proof/Machine/Airflow.lean ====
section
/-! DEFINITION. The Airflow Controller's shared operations (05): weighted demands, targets and their reasons, and the duty
that follows a target. -/
namespace Sys2Proof.Machine

/-- The weighted effective demand (R91). -/
def weighted (w : Weight) (d : Byte) : Nat :=
  match w with
  | .none => 0
  | .quarter => d.toNat / 4
  | .half => d.toNat / 2
  | .full => d.toNat

/-- Station `a`'s weighted effective demand for fan `f` (R91). -/
def State.weightedDemand (s : State) (f : FanId) (a : Station) : Nat :=
  weighted (s.fanCfg f).weights[a] (s.effectiveDemand a)

/-- The largest weighted effective demand among the sixteen stations (R92). -/
def State.largestDemand (s : State) (f : FanId) : Nat :=
  (List.finRange 16).foldl (fun m a => max m (s.weightedDemand f a)) 0

/-- The unforced target (R92). -/
def State.unforcedTarget (s : State) (f : FanId) : Byte :=
  BitVec.ofNat 8 (max (s.fanCfg f).floor.toNat (s.largestDemand f))

/-- The first forcing condition that holds for fan `f`, in the order of the table of R94. -/
def State.forcing (s : State) (f : FanId) : Option Forcing :=
  if !s.running then some .nodeState
  else if s.round.state == .committed || s.round.state == .halted then some .roundDecided
  else if s.shutdownLatch then some .shutdownLatch
  else if s.fanFailed (otherFan f) then some .otherFan
  else none

/-- The target of fan `f` (R93). -/
def State.targetNow (s : State) (f : FanId) : Byte :=
  match s.forcing f with
  | some _ => 255
  | none => s.unforcedTarget f

/-- The reason for the unforced target (R109). -/
def State.unforcedReason (s : State) (f : FanId) : TargetReason :=
  if s.largestDemand f ≤ (s.fanCfg f).floor.toNat then .floor
  else
    match (List.finRange 16).find? (fun a => s.weightedDemand f a == s.largestDemand f) with
    | some a => .station a
    | none => .floor

/-- The reason for the target of fan `f` (R109). -/
def State.reasonNow (s : State) (f : FanId) : TargetReason :=
  match s.forcing f with
  | some c => .forced c
  | none => s.unforcedReason f

/-- A duty, once changed, that is below the stall floor ends the window's qualifying (R100). -/
def FanRecord.withDuty (stallFloor : Nat) (d : Byte) (r : FanRecord) : FanRecord :=
  { r with duty := d, windowQualifies := r.windowQualifies && !(decide (d.toNat < stallFloor)) }

/-- The duty follows a changed target (R95). -/
def FanRecord.follow (now : Millis) (stallFloor : Nat) (t : Byte) (r : FanRecord) : FanRecord :=
  if r.duty.toNat < t.toNat then { (r.withDuty stallFloor t) with target := t, fallDeadline := none }
  else if t = r.duty then { r with target := t, fallDeadline := none }
  else { r with target := t, fallDeadline := some (r.fallDeadline.getD (now + Config.fallInterval)) }

/-- One fan's recomputation: the reason is recorded anew, and a changed target is followed at once (R93, R109). -/
def State.retarget (s : State) (f : FanId) : FanRecord :=
  let r := { s.fan f with reason := s.reasonNow f }
  if s.targetNow f = r.target then r else r.follow s.now s.cfg.stallFloor (s.targetNow f)

/-- Both fans' targets are recomputed (R93). -/
def State.recomputeTargets (s : State) : State :=
  { s with fanA := s.retarget .a, fanB := s.retarget .b }

/-- A fall deadline's expiry steps the duty down (R96, R100). -/
def FanRecord.stepDown (now : Millis) (fallStep stallFloor : Nat) (r : FanRecord) : FanRecord :=
  let step := min fallStep (r.duty.toNat - r.target.toNat)
  let d := BitVec.ofNat 8 (r.duty.toNat - step)
  let r' := if step = 0 then r else r.withDuty stallFloor d
  { r' with fallDeadline := if r.target.toNat < d.toNat then some (now + Config.fallInterval) else none }

/-- The closed window is judged while the fan is OK (R101) or FAILED (R102). -/
def FanRecord.judgeWindow (r : FanRecord) : FanRecord :=
  if r.windowQualifies then
    match r.condition with
    | .ok =>
      if r.edgeSeen then { r with stallCount := 0 }
      else if r.stallCount + 1 < Config.persistence then { r with stallCount := r.stallCount + 1 }
      else { r with condition := .failed, stallCount := 0 }
    | .failed =>
      if r.edgeSeen then
        if r.goodCount + 1 < Config.persistence then { r with goodCount := r.goodCount + 1 }
        else { r with condition := .ok, goodCount := 0 }
      else { r with goodCount := 0 }
  else r

/-- A fan check window opens (R98). -/
def FanRecord.openWindow (now : Millis) (stallFloor : Nat) (r : FanRecord) : FanRecord :=
  { r with
    windowDeadline := some (now + Config.windowInterval)
    edgeSeen := false
    windowQualifies := decide (stallFloor ≤ r.duty.toNat) }

end Sys2Proof.Machine
end

