-- ==== Sys2Proof/Machine/Queue.lean ====
section
/-! DEFINITION. The Transmit Queue (08): kinds and classes, the slot and pair rules, admission, queueing over a pending
entry, the head, return from the wire, and purges. The queue is a list, oldest entry first (R142). -/
namespace Sys2Proof

/-- The kind of a frame or pending entry (R110). -/
def FrameOf.kind {σ : Type} : FrameOf σ → FrameKind
  | .join _ _ => .join
  | .status _ => .status
  | .alarm _ => .alarm
  | .ack _ => .ack
  | .propose _ _ _ => .propose
  | .vote _ _ => .vote
  | .withdraw _ => .withdraw
  | .commit _ _ => .commit
  | .leave => .leave

/-- The frame once a STATUS has this payload (R112); every other kind is as it was built (R111). -/
def FrameOf.withStatus {σ τ : Type} (p : τ) : FrameOf σ → FrameOf τ
  | .join g d => .join g d
  | .status _ => .status p
  | .alarm l => .alarm l
  | .ack l => .ack l
  | .propose r c x => .propose r c x
  | .vote r v => .vote r v
  | .withdraw r => .withdraw r
  | .commit r cs => .commit r cs
  | .leave => .leave

/-- The frame as a pending entry: a STATUS drops its snapshot (R112, R147). -/
def FrameOf.asPending {σ : Type} (f : FrameOf σ) : Pending := f.withStatus ()

/-- The code of a kind (R110). -/
def FrameKind.code : FrameKind → Nat
  | .join => 1
  | .status => 2
  | .alarm => 3
  | .ack => 4
  | .propose => 5
  | .vote => 6
  | .withdraw => 7
  | .commit => 8
  | .leave => 9

/-- The class of a kind (R110). -/
def FrameKind.cls : FrameKind → Nat
  | .join => 6
  | .status => 5
  | .alarm => 3
  | .ack => 4
  | .propose => 1
  | .vote => 2
  | .withdraw => 1
  | .commit => 0
  | .leave => 6

end Sys2Proof

namespace Sys2Proof.Machine

/-! ## Lists of records and of pairs (R113, R114) -/

/-- The event belongs to the sensor group (R113). -/
def sensorGroup : AlarmEvent → Bool
  | .fault | .restore => true
  | .rise | .fall => false

/-- Two records share a slot: the same channel and the same event group (R113). -/
def sameSlot (x y : AlarmRecord) : Bool := x.channel == y.channel && sensorGroup x.event == sensorGroup y.event

/-- One record placed in a list: in place of the record of its slot, or at the end (R113). -/
def placeRecord (l : List AlarmRecord) (r : AlarmRecord) : List AlarmRecord :=
  if l.any (sameSlot r) then l.map fun x => if sameSlot r x then r else x else l ++ [r]

/-- Records placed one after another (R113, R148). -/
def placeRecords (l rs : List AlarmRecord) : List AlarmRecord := rs.foldl placeRecord l

/-- One pair merged into a list: united with the pair of its station, or at the end (R114). -/
def mergePair (l : List AckPair) (p : AckPair) : List AckPair :=
  if l.any (·.station == p.station) then
    l.map fun x => if x.station == p.station then { x with channels := x.channels ||| p.channels } else x
  else l ++ [p]

/-- Pairs merged one after another (R114, R149). -/
def mergePairs (l ps : List AckPair) : List AckPair := ps.foldl mergePair l

/-! ## Entries by kind -/

/-- An entry of this kind is pending. -/
def pendingKind (q : List Pending) (k : FrameKind) : Bool := q.any (·.kind == k)

/-- The queue without the entry of this kind. -/
def withoutKind (q : List Pending) (k : FrameKind) : List Pending := q.filter (·.kind != k)

/-- The record list of the pending ALARM, empty if none is pending. -/
def pendingRecords (q : List Pending) : List AlarmRecord :=
  q.flatMap fun f => match f with
    | .alarm l => l
    | _ => []

/-- The pair list of the pending ACK, empty if none is pending. -/
def pendingPairs (q : List Pending) : List AckPair :=
  q.flatMap fun f => match f with
    | .ack l => l
    | _ => []

/-! ## Admission and queueing (R143, R144) -/

/-- What a node state admits to the queue (R143). -/
def NodeState.admits (n : NodeState) (k : FrameKind) : Bool :=
  match n with
  | .joining => k == .join
  | .active => k != .join
  | .loading | .configFault | .listening | .linkOff | .conflict | .quiet => false

/-- A record list placed in the pending ALARM; another entry is as it was (R144). -/
def growAlarm (rs : List AlarmRecord) : Pending → Pending
  | .alarm old => .alarm (placeRecords old rs)
  | f => f

/-- A pair list merged into the pending ACK; another entry is as it was (R144). -/
def growAck (ps : List AckPair) : Pending → Pending
  | .ack old => .ack (mergePairs old ps)
  | f => f

/-- An admitted frame arrives at the queue (R144). -/
def enqueue (q : List Pending) (f : Pending) : List Pending :=
  match f with
  | .propose _ _ _ | .vote _ _ | .withdraw _ | .commit _ _ => withoutKind q f.kind ++ [f]
  | .status _ | .join _ _ | .leave => if pendingKind q f.kind then q else q ++ [f]
  | .alarm rs => if pendingKind q .alarm then q.map (growAlarm rs) else q ++ [.alarm (placeRecords [] rs)]
  | .ack ps => if pendingKind q .ack then q.map (growAck ps) else q ++ [.ack (mergePairs [] ps)]

/-- A block offers a frame: admitted and queued, or dropped (R143, R144). -/
def State.offer (f : Pending) (s : State) : State :=
  if s.life.nodeState.admits f.kind then { s with queue := enqueue s.queue f } else s

/-- ALARM records offered in order (R66). -/
def State.offerRecords (rs : List AlarmRecord) (s : State) : State :=
  rs.foldl (fun t r => t.offer (.alarm [r])) s

/-! ## Purges (R151) -/

/-- Removes the pending entries that satisfy `p`; never the frame in flight (R151). -/
def State.purge (p : Pending → Bool) (s : State) : State := { s with queue := s.queue.filter fun f => !p f }

/-- The round frames purged when a round is abandoned (R40, R49). -/
def isProposeOrVote (f : Pending) : Bool := f.kind == .propose || f.kind == .vote

/-- The round frames purged at a commitment (R37, R42, R49). -/
def isUndecidedRound (f : Pending) : Bool := f.kind == .propose || f.kind == .vote || f.kind == .withdraw

/-! ## The head and the return from the wire (R142, R147) -/

/-- The entry at the head: the lowest class, and within it the oldest (R142). -/
def headEntry : List Pending → Option Pending
  | [] => none
  | f :: fs =>
    match headEntry fs with
    | none => some f
    | some g => if f.kind.cls ≤ g.kind.cls then some f else some g

/-- A frame returned from the wire joins the queue as the oldest entry, unless one of its kind is pending (R147). -/
def returnUnlessPending (q : List Pending) (f : Pending) : List Pending :=
  if pendingKind q f.kind then q else f :: q

/-- A frame returned from the wire, judged by kind; `current` is the Round Controller's answer for it (R147, R148, R149). -/
def returned (q : List Pending) (f : Frame) (current : Bool) : List Pending :=
  match f with
  | .alarm rs => .alarm (placeRecords rs (pendingRecords q)) :: withoutKind q .alarm
  | .ack ps => .ack (mergePairs ps (pendingPairs q)) :: withoutKind q .ack
  | .propose _ _ _ | .vote _ _ | .withdraw _ => if current then returnUnlessPending q f.asPending else q
  | .status _ | .commit _ _ | .join _ _ | .leave => returnUnlessPending q f.asPending

/-! ## The ACK station count (R145) -/

/-- The stations an ACK in flight names. -/
def inFlightPairs (f : Option Frame) : List AckPair :=
  match f with
  | some (.ack l) => l
  | _ => []

/-- The stations named in the pending ACK or in the ACK in flight (R145). -/
def State.ackStations (s : State) : StationSet :=
  membersWhere fun a => (pendingPairs s.queue ++ inFlightPairs s.link.inFlight).any (·.station == a)

/-- The ACK station count (R145). -/
def State.ackStationCount (s : State) : Nat := cardinality s.ackStations

end Sys2Proof.Machine
end

