-- ==== Sys2Proof/Machine/Rounds.lean ====
section
/-! DEFINITION. The Round Controller's shared operations (02): storing a changed record, opening, proposing, recording
verdicts, the commit test, committing, adopting, abandoning, withdrawing and halting. -/
namespace Sys2Proof.Machine

/-- The record is stored; a change of its state is delivered to the Airflow Controller (R47). -/
def State.storeRound (r : RoundRecord) (s : State) : State :=
  let s' := { s with round := r }
  if r.state = s.round.state then s' else s'.recomputeTargets

/-- Round `r` is newer than round `c` (00 "Round numbers"). -/
def newerRound (r c : Byte) : Bool := decide (1 ≤ (r - c).toNat ∧ (r - c).toNat ≤ 127)

/-! ## Grace and halt (R45, R46) -/

/-- The grace interval has run out on a COMMITTED record: the latch is asserted and the record is HALTED (R45). -/
def State.halt (s : State) : State :=
  ({ s with shutdownLatch := true }.mirrorLatch).storeRound
    { s.round with state := .halted, graceDeadline := none } |>.recomputeTargets

/-- With T_grace 0 the grace deadline expires as soon as it is armed, so the record passes through COMMITTED to HALTED at
the moment of commitment (R45; log 7). -/
def State.graceAtOnce (s : State) : State :=
  if s.round.state = .committed ∧ s.cfg.graceInterval = 0 then s.halt else s

/-! ## Counting and committing (R35 to R37, R42, R43) -/

/-- The record after this node commits by its own tally (R37). -/
def State.tallyRecord (s : State) : RoundRecord :=
  { s.round with
    state := .committed
    proposers := 0
    roundDeadline := none
    graceDeadline := some (s.now + s.cfg.graceInterval)
    concurSet := some (if s.ownConcurs then insertMember s.concurring s.own else s.concurring) }

/-- This node commits by its own tally (R37): the record changes, PROPOSE, VOTE and WITHDRAW are purged, and a COMMIT is
queued after the purge (R151). -/
def State.commitByTally (s : State) : State :=
  let r := s.tallyRecord
  ((s.storeRound r).purge isUndecidedRound).offer (.commit r.number (r.concurSet.getD 0)) |>.graceAtOnce

/-- The commit test (R36). -/
def State.commitTest (s : State) : State :=
  if s.isActive ∧ s.round.state = .opened ∧ s.quorum ≤ s.concurCount then s.commitByTally else s

/-- The record after a commitment for round `r` is adopted (R42, R43). -/
def State.adoptedRecord (s : State) (r : Byte) (set : Option StationSet) : RoundRecord :=
  let keep := s.round.state = .opened ∧ s.round.number = r
  { s.round with
    state := .committed
    number := r
    proposers := 0
    roundDeadline := none
    graceDeadline := some (s.now + s.cfg.graceInterval)
    concurSet := set
    votes := if keep then s.round.votes else Vector.replicate 16 none
    reason := if keep then s.round.reason else none
    ownVerdict := if keep then s.round.ownVerdict else none }

/-- A commitment for round `r` is adopted (R42, R43). -/
def State.adopt (r : Byte) (set : Option StationSet) (s : State) : State :=
  (s.storeRound (s.adoptedRecord r set)).purge isUndecidedRound |>.graceAtOnce

/-! ## Proposing (R24 to R26) -/

/-- The proposal test (R24). -/
def State.proposalTest (s : State) : Bool :=
  s.isActive && s.nodeCritical && !(s.round.state == .opened && member s.round.proposers s.own)

/-- The lowest-numbered CRITICAL channel (R26). -/
def State.reasonChannel (s : State) : Channel := ((List.finRange 8).find? s.isCritical).getD 0

/-- The reading that goes with it: its value, or its critical high where the reading is no value (R26). -/
def State.reasonReading (s : State) : HalfDegrees :=
  match (s.watch s.reasonChannel).reading with
  | .value x => x
  | .fault | .absent => (s.channelCfg s.reasonChannel).criticalHigh

/-- The PROPOSE for round `r` with the reason of this moment (R26, R48). -/
def State.proposeFrame (s : State) (r : Byte) : Pending := .propose r s.reasonChannel s.reasonReading

/-- The opening of a round reaches the Life Cycle Controller, which takes back a pending LEAVE (R24, R167). -/
def State.roundOpened (s : State) : State :=
  if s.life.leavePending && pendingKind s.queue .leave then
    let s' := s.purge fun f => f.kind == .leave
    match s.link.inFlight with
    | some .leave => s'
    | _ => { s' with life := { s'.life with leavePending := false } }
  else s

/-- The record of a round this node opens itself (R24, R26). -/
def State.ownRoundRecord (s : State) : RoundRecord :=
  { s.round with
    state := .opened
    number := s.round.lastClosed + 1
    proposers := single s.own
    votes := Vector.replicate 16 none
    ownVerdict := some .concur
    reason := some { station := s.own, channel := s.reasonChannel, reading := s.reasonReading }
    concurSet := none
    roundDeadline := some (s.now + s.cfg.roundTimeout) }

/-- The node opens a round of its own (R24), and the commit test follows (R36). -/
def State.openOwn (s : State) : State :=
  let r := s.ownRoundRecord
  ((s.storeRound r).offer (s.proposeFrame r.number)).roundOpened.commitTest

/-- The node co-proposes (R25); the commit test follows if the own verdict changed (R36). Only a pending WITHDRAW for the
current round is removed (R25; log 16). -/
def State.coPropose (s : State) : State :=
  let s' := (s.storeRound { s.round with
      proposers := insertMember s.round.proposers s.own, ownVerdict := some .concur }).purge
      (fun f => f == .withdraw s.round.number) |>.offer (s.proposeFrame s.round.number)
  if s.round.ownVerdict = some .concur then s' else s'.commitTest

/-- The proposal test is made, and the node proposes or co-proposes if it holds (R24). -/
def State.propose (s : State) : State :=
  if s.proposalTest then
    match s.round.state with
    | .idle => s.openOwn
    | .opened => s.coPropose
    | .committed | .halted => s
  else s

/-! ## Opening from a peer's frame (R27, R29, R30, R31) -/

/-- The record of a round opened from a peer's frame (R27, R30), with the standing verdict as the own verdict (R31, R88). -/
def State.heardRoundRecord (s : State) (r : Byte) (proposers : StationSet) (a : Station) (v : Option Verdict)
    (reason : Option Reason) : RoundRecord :=
  { s.round with
    state := .opened
    number := r
    proposers := proposers
    votes := (Vector.replicate 16 none).set a v
    ownVerdict := some s.standing
    reason := reason
    concurSet := none
    roundDeadline := some (s.now + s.cfg.roundTimeout) }

/-- The node answers a round it has just opened from a peer: it co-proposes, or votes if ACTIVE (R31). -/
def State.answerOpening (s : State) : State :=
  if s.proposalTest then s.coPropose
  else
    match s.round.ownVerdict with
    | some v => s.offer (.vote s.round.number v)
    | none => s

/-- A round is opened from a peer's frame: the record, the delivery to the Life Cycle Controller, the answer, and the commit
test (R31). -/
def State.openHeard (rec : RoundRecord) (s : State) : State := ((s.storeRound rec).roundOpened).answerOpening.commitTest

/-! ## Abandoning and withdrawing (R38 to R40) -/

/-- The record after abandonment (R40). -/
def RoundRecord.abandoned (r : RoundRecord) : RoundRecord :=
  { r with
    lastClosed := r.number
    state := .idle
    proposers := 0
    votes := Vector.replicate 16 none
    reason := none
    ownVerdict := none
    concurSet := none
    roundDeadline := none }

/-- The round is abandoned and pending PROPOSE and VOTE are removed (R40). -/
def State.abandon (s : State) : State := (s.storeRound s.round.abandoned).purge isProposeOrVote

/-- A station leaves the proposer set of the open round, which is abandoned if the set is left empty; the proposal test is
then made (R38, R39, R40). -/
def State.dropProposer (a : Station) (s : State) : State :=
  let p := removeMember s.round.proposers a
  if p = 0 then s.abandon.propose else s.storeRound { s.round with proposers := p }

/-- Node critical ends (R38). -/
def State.withdrawOwn (s : State) : State :=
  if s.round.state = .opened ∧ member s.round.proposers s.own then
    ((s.purge fun f => f.kind == .propose).offer (.withdraw s.round.number)).dropProposer s.own
  else s

/-! ## Verdicts (R32, R34) -/

/-- A verdict recorded for a station: a CONCUR is never replaced (R32). -/
def recordVerdict (votes : Vector (Option Verdict) 16) (a : Station) (v : Verdict) : Vector (Option Verdict) 16 :=
  if votes[a] = some .concur then votes else votes.set a (some v)

/-- A verdict is recorded for a station and the commit test follows (R32). -/
def State.recordVote (a : Station) (v : Verdict) (s : State) : State :=
  (s.storeRound { s.round with votes := recordVerdict s.round.votes a v }).commitTest

/-- A change of the standing verdict reaches the Round Controller (R34, R88). -/
def State.verdictChanged (v : Verdict) (s : State) : State :=
  if s.round.state = .opened ∧ v = .concur ∧ s.round.ownVerdict = some .refuse then
    ((s.storeRound { s.round with ownVerdict := some .concur }).offer (.vote s.round.number .concur)).commitTest
  else s

/-! ## Hearing round frames (R27 to R33, R39, R42 to R44) -/

/-- A PROPOSE for round `r` from station `a` opens a round (R27). -/
def State.openFromPropose (a : Station) (r : Byte) (c : Channel) (x : HalfDegrees) (s : State) : State :=
  s.openHeard (s.heardRoundRecord r (single a) a (some .concur) (some { station := a, channel := c, reading := x }))

/-- A PROPOSE for round `r` from station `a` (R27, R28, R29, R44). -/
def State.hearPropose (a : Station) (r : Byte) (c : Channel) (x : HalfDegrees) (s : State) : State :=
  match s.round.state with
  | .idle => if r = s.round.lastClosed then s else s.openFromPropose a r c x
  | .opened =>
    if r = s.round.number then
      (s.storeRound { s.round with proposers := insertMember s.round.proposers a }).recordVote a .concur
    else if newerRound r s.round.number then s.abandon.openFromPropose a r c x
    else s
  | .committed | .halted => s

/-- A STATUS showing OPEN opens a round, unless no proposer would be in it (R30). -/
def State.openFromStatus (a : Station) (f : StatusFields) (s : State) : State :=
  let p := removeMember f.proposers s.own
  if p = 0 ∧ ¬ (s.isActive ∧ s.nodeCritical) then s
  else s.openHeard (s.heardRoundRecord f.roundNumber p a f.verdict none)

/-- A STATUS showing OPEN (R29, R30, R33, R44). -/
def State.hearOpenStatus (a : Station) (f : StatusFields) (s : State) : State :=
  match s.round.state with
  | .idle => if f.roundNumber = s.round.lastClosed then s else s.openFromStatus a f
  | .opened =>
    if f.roundNumber = s.round.number then
      match f.verdict with
      | some v => s.recordVote a v
      | none => s
    else if newerRound f.roundNumber s.round.number then s.abandon.openFromStatus a f
    else s
  | .committed | .halted => s

/-- A commitment for round `r` is heard, in a COMMIT or in a STATUS (R42, R43, R44). -/
def State.hearCommitment (r : Byte) (set : Option StationSet) (s : State) : State :=
  match s.round.state with
  | .idle | .opened => s.adopt r set
  | .committed | .halted => s

/-- The round fields of a STATUS (R29, R30, R33, R43, R51: an IDLE STATUS opens nothing). -/
def State.hearStatusRound (a : Station) (f : StatusFields) (s : State) : State :=
  match f.roundState with
  | .idle => s
  | .opened => s.hearOpenStatus a f
  | .committed | .halted => s.hearCommitment f.roundNumber none

/-- A VOTE for round `r` from station `a` (R32). -/
def State.hearVote (a : Station) (r : Byte) (v : Verdict) (s : State) : State :=
  if s.round.state = .opened ∧ r = s.round.number then s.recordVote a v else s

/-- A WITHDRAW for round `r` from station `a` (R39). -/
def State.hearWithdraw (a : Station) (r : Byte) (s : State) : State :=
  if s.round.state = .opened ∧ r = s.round.number ∧ member s.round.proposers a then s.dropProposer a else s

/-! ## Entry into ACTIVE, currency, and what a STATUS says (R50, R51, R53) -/

/-- The Round Controller takes the entry into ACTIVE (R53). -/
def State.roundEntersActive (s : State) : State :=
  match s.round.state with
  | .idle => s.propose
  | .opened => s.answerOpening.commitTest
  | .committed | .halted => s

/-- Whether a frame returned from the wire is still current (R50). -/
def State.isCurrent (s : State) (f : Frame) : Bool :=
  match f with
  | .propose r _ _ => s.round.state == .opened && s.round.number == r && member s.round.proposers s.own
  | .vote r _ => s.round.state == .opened && s.round.number == r
  | .withdraw r =>
    (s.round.state == .opened && s.round.number == r && !member s.round.proposers s.own)
      || ((s.round.state == .idle || s.round.state == .opened) && s.round.lastClosed == r)
  | .commit _ _ | .join _ _ | .status _ | .alarm _ | .ack _ | .leave => true

/-- The STATUS snapshot (R51, R112). -/
def State.statusSnapshot (s : State) : StatusFields :=
  let e := s.peer s.own
  { demand := e.demand, raised := e.raised, unacked := e.unacked, faulted := e.faulted,
    fanAFailed := e.fanAFailed, fanBFailed := e.fanBFailed, critical := e.critical, shutdownHeld := e.shutdownHeld,
    roundNumber := if s.round.state = .idle then s.round.lastClosed else s.round.number
    roundState := s.round.state
    verdict := if s.round.state = .idle then none else s.round.ownVerdict
    proposers := if s.round.state = .opened then s.round.proposers else 0
    signature := e.signature.getD 0 }

end Sys2Proof.Machine
end

