-- ==== Sys2Proof/Machine/Peers.lean ====
section
/-! DEFINITION. The Peer Table's shared operations (01): refresh and departure, what JOIN, STATUS and ALARM do to an entry,
ageing, and the delivery of a changed entry (R18, R20). -/
namespace Sys2Proof.Machine

/-! ## One entry (R6, R7, R12 to R15) -/

/-- A valid frame other than LEAVE refreshes its sender's entry (R2, R6). -/
def PeerEntry.refresh (now limit : Millis) (e : PeerEntry) : PeerEntry :=
  { e with presence := .present, lastHeard := some now, silenceDeadline := some (now + limit), lostDeadline := none }

/-- A valid LEAVE makes its sender's entry DEPARTED (R7). -/
def PeerEntry.depart (now : Millis) (e : PeerEntry) : PeerEntry :=
  { e with presence := .departed, lastHeard := some now, silenceDeadline := none, lostDeadline := none }

/-- A signature from a JOIN or STATUS is stored and compared with the node's own (R12). -/
def PeerEntry.sign (own g : Word16) (e : PeerEntry) : PeerEntry :=
  { e with signature := some g, signatureState := if g = own then .isMatch else .mismatch }

/-- What a JOIN does to the refreshed entry (R13). -/
def PeerEntry.applyJoin (own g : Word16) (d : Byte) (e : PeerEntry) : PeerEntry :=
  { e.sign own g with
    demand := d, raised := 0, unacked := 0, faulted := 0, fanAFailed := false, fanBFailed := false,
    critical := false, shutdownHeld := false, reported := none }

/-- What a STATUS does to the refreshed entry (R14). -/
def PeerEntry.applyStatus (own : Word16) (f : StatusFields) (e : PeerEntry) : PeerEntry :=
  { e.sign own f.signature with
    demand := f.demand, raised := f.raised, unacked := f.unacked, faulted := f.faulted,
    fanAFailed := f.fanAFailed, fanBFailed := f.fanBFailed, critical := f.critical,
    shutdownHeld := f.shutdownHeld
    reported := some { number := f.roundNumber, state := f.roundState, verdict := f.verdict, proposers := f.proposers } }

/-- A channel is put into a set or taken out of it. -/
def putMember {w : Nat} (x : BitVec w) (c : Fin w) (inside : Bool) : BitVec w :=
  if inside then insertMember x c else removeMember x c

/-- What one ALARM record does to the refreshed entry (R15). -/
def PeerEntry.applyRecord (e : PeerEntry) (r : AlarmRecord) : PeerEntry :=
  let e' := { e with unacked := putMember e.unacked r.channel r.needsAck }
  match r.event with
  | .rise => { e' with raised := insertMember e.raised r.channel }
  | .fall => { e' with raised := removeMember e.raised r.channel }
  | .fault => { e' with faulted := insertMember e.faulted r.channel }
  | .restore => { e' with faulted := removeMember e.faulted r.channel }

/-- What an ALARM does to the refreshed entry, record by record (R15). -/
def PeerEntry.applyAlarm (rs : List AlarmRecord) (e : PeerEntry) : PeerEntry := rs.foldl PeerEntry.applyRecord e

/-- The silence deadline of a PRESENT entry expires: SILENT, or DEPARTED where the lost deadline would not be later than the
expiry (R8). -/
def PeerEntry.fallSilent (now lost : Millis) (e : PeerEntry) : PeerEntry :=
  let t := e.lastHeard.getD now + lost
  if t ≤ now then { e with presence := .departed, silenceDeadline := none, lostDeadline := none }
  else { e with presence := .silent, silenceDeadline := none, lostDeadline := some t }

/-- The lost deadline of a SILENT entry expires (R9). -/
def PeerEntry.beLost (e : PeerEntry) : PeerEntry := { e with presence := .departed, lostDeadline := none }

/-! ## Deliveries (R18, R20) -/

/-- P is recomputed; a change of it, or of a signature state, is followed by the commit test (R17, R18, R36). -/
def State.deliverEligible (signatureChanged : Bool) (s : State) : State :=
  let s' := { s with eligible := s.eligibleNow }
  if s.eligibleNow ≠ s.eligible ∨ signatureChanged then s'.commitTest else s'

/-- A station's entry changes; the change of P is delivered, then the change of its effective demand (R18, R20). -/
def State.changePeer (a : Station) (f : PeerEntry → PeerEntry) (s : State) : State :=
  let s₁ := s.setPeer a (f (s.peer a))
  let s₂ := s₁.deliverEligible ((s₁.peer a).signatureState != (s.peer a).signatureState)
  if s₂.effectiveDemand a = s.effectiveDemand a then s₂ else s₂.recomputeTargets

/-- The refresh of R6 with the node's own silence limit. -/
def State.refreshed (s : State) (e : PeerEntry) : PeerEntry := e.refresh s.now s.cfg.silenceLimit

/-- The refresh alone, as ACK and the four round kinds bring it (R16). -/
def State.refreshPeer (a : Station) (s : State) : State := s.changePeer a s.refreshed

/-- Round traffic counts unless its sender's signature state is MISMATCH (R23). -/
def State.roundTrafficCounts (s : State) (a : Station) : Bool := (s.peer a).signatureState != .mismatch

/-- A round frame: the refresh, and then the Round Controller where the sender's traffic counts (R16, R23). -/
def State.viaRound (a : Station) (f : State → State) (s : State) : State :=
  let s' := s.refreshPeer a
  if s'.roundTrafficCounts a then f s' else s'

/-- A JOIN from a peer (R13). -/
def State.peerJoins (a : Station) (g : Word16) (d : Byte) (s : State) : State :=
  s.changePeer a fun e => (s.refreshed e).applyJoin s.cfg.signature g d

/-- A STATUS from a peer: the entry, its deliveries, then the round fields (R14, R18, R23). -/
def State.peerReports (a : Station) (f : StatusFields) (s : State) : State :=
  let s' := s.changePeer a fun e => (s.refreshed e).applyStatus s.cfg.signature f
  if s'.roundTrafficCounts a then s'.hearStatusRound a f else s'

/-- An ALARM from a peer (R15). -/
def State.peerAlarms (a : Station) (rs : List AlarmRecord) (s : State) : State :=
  s.changePeer a fun e => (s.refreshed e).applyAlarm rs

/-- A LEAVE from a peer (R7). -/
def State.peerLeaves (a : Station) (s : State) : State := s.changePeer a fun e => e.depart s.now

/-- The own entry as it is formed when a good image is loaded (R3). -/
def State.formOwnEntry (s : State) : State :=
  s.setPeer s.own
    { presence := .present
      signatureState := .isMatch
      signature := some s.cfg.signature
      demand := s.localDemand
      raised := s.channelsWhere (·.condition == .raised)
      unacked := s.channelsWhere (·.reportState == .unacked)
      faulted := s.channelsWhere (·.faulted)
      fanAFailed := s.fanFailed .a
      fanBFailed := s.fanFailed .b
      critical := s.nodeCritical
      shutdownHeld := s.shutdownLatch
      reported := none
      lastHeard := none
      silenceDeadline := none
      lostDeadline := none }

end Sys2Proof.Machine
end

