-- ==== Sys2Proof/Machine/Monitor.lean ====
section
/-! DEFINITION. The Channel Monitor's shared operations (03, 04): the sensor event test, the condition machine, reporting by
mode, the critical machine, a sample handled whole, and acknowledgement. -/
namespace Sys2Proof.Machine

/-- What the Channel Monitor is handed: a fault sample, or a valid sample with its reading (R57). -/
inductive Sample where
  | fault
  | valid (reading : HalfDegrees)
  deriving DecidableEq, Repr

/-! ## Sensor events and the condition machine (R62 to R65) -/

/-- The reading a sample leaves in the record (R61). -/
def Sample.asReading : Sample → Reading
  | .fault => .fault
  | .valid x => .value x

/-- The sensor event a sample produces (R62). -/
def sensorEvent (p : Sample) (w : WatchRecord) : Option AlarmEvent :=
  match p with
  | .fault => if w.faulted then none else some .fault
  | .valid _ => if w.faulted then some .restore else none

/-- The record after the sensor event test: faulted exactly while the reading is FAULT (R61, R62). -/
def WatchRecord.sense (p : Sample) (w : WatchRecord) : WatchRecord :=
  { w with reading := p.asReading, faulted := p == .fault }

/-- A sample is beyond high (R63). -/
def beyondHigh (k : ChannelConfig) : Sample → Bool
  | .fault => true
  | .valid x => decide (k.highLimit ≤ x)

/-- A sample is back within (R63). -/
def backWithin (k : ChannelConfig) : Sample → Bool
  | .fault => false
  | .valid x => decide (x ≤ k.highLimit - k.hysteresis)

/-- The condition event a sample produces (R64, R65). -/
def conditionEvent (k : ChannelConfig) (p : Sample) (w : WatchRecord) : Option AlarmEvent :=
  match w.condition with
  | .normal => if beyondHigh k p ∧ k.persistence ≤ w.riseCount + 1 then some .rise else none
  | .raised => if backWithin k p ∧ k.persistence ≤ w.fallCount + 1 then some .fall else none

/-- The record after the condition machine (R64, R65). -/
def WatchRecord.conditionStep (k : ChannelConfig) (p : Sample) (w : WatchRecord) : WatchRecord :=
  match w.condition with
  | .normal =>
    if beyondHigh k p then
      if k.persistence ≤ w.riseCount + 1 then { w with condition := .raised, riseCount := 0 }
      else { w with riseCount := w.riseCount + 1 }
    else { w with riseCount := 0 }
  | .raised =>
    if backWithin k p then
      if k.persistence ≤ w.fallCount + 1 then { w with condition := .normal, fallCount := 0 }
      else { w with fallCount := w.fallCount + 1 }
    else { w with fallCount := 0 }

/-! ## Reporting (R66 to R70) -/

/-- The reading a record carries (R66): 0 for a FAULT, the sample's reading where there is one, else the high limit. -/
def reportReading (k : ChannelConfig) (e : AlarmEvent) (x : Reading) : HalfDegrees :=
  match e with
  | .fault => 0
  | .restore | .rise | .fall =>
    match x with
    | .value r => r
    | .fault | .absent => k.highLimit

/-- The ALARM record for an event on channel `c`, once the event has been dealt with and left the record `w` (R66). -/
def alarmRecord (c : Channel) (k : ChannelConfig) (e : AlarmEvent) (w : WatchRecord) : AlarmRecord :=
  { channel := c, event := e, needsAck := w.reportState == .unacked, reading := reportReading k e w.reading }

/-- Whether a condition event is reported, by mode and report state (R67, R68, R69). -/
def reports (m : ReportMode) (e : AlarmEvent) (w : WatchRecord) : Bool :=
  match m, w.reportState with
  | .level, _ => true
  | .edge, .clear => true
  | .edge, .unacked => false
  | .once, .clear => e == .rise
  | .once, .unacked => false
  | .reserved, _ => false

/-- The record after a report of its present condition (R67, R68, R69). -/
def WatchRecord.reported (m : ReportMode) (w : WatchRecord) : WatchRecord :=
  { w with lastReported := w.condition, reportState := if m = .level then w.reportState else .unacked }

/-- The record after a condition event, reported or not (R67, R68, R69). -/
def WatchRecord.afterEvent (m : ReportMode) (e : AlarmEvent) (w : WatchRecord) : WatchRecord :=
  if reports m e w then w.reported m
  else if m = .once ∧ e = .rise then { w with unreportedRise := true }
  else w

/-- The record after parts 1 to 3 of R61. -/
def WatchRecord.takeSample (k : ChannelConfig) (p : Sample) (w : WatchRecord) : WatchRecord :=
  let w₂ := (w.sense p).conditionStep k p
  match conditionEvent k p (w.sense p) with
  | some e => w₂.afterEvent k.mode e
  | none => w₂

/-- The ALARM records parts 1 to 3 of R61 report, the sensor event before the condition event. -/
def sampleRecords (c : Channel) (k : ChannelConfig) (p : Sample) (w : WatchRecord) : List AlarmRecord :=
  let w₁ := w.sense p
  let sensor := (sensorEvent p w).toList.map fun e => alarmRecord c k e w₁
  let cond := match conditionEvent k p w₁ with
    | some e => if reports k.mode e (w₁.conditionStep k p) then [alarmRecord c k e (w.takeSample k p)] else []
    | none => []
  sensor ++ cond

/-! ## The critical machine (R78 to R81) -/

/-- The record after the critical machine has been offered the sample (R78 to R81). -/
def WatchRecord.criticalStep (k : ChannelConfig) (p : Sample) (w : WatchRecord) : WatchRecord :=
  if k.enabled && k.criticalEnabled then
    match p with
    | .fault => w
    | .valid x =>
      match w.criticalState with
      | .calm =>
        if k.criticalHigh ≤ x then
          if k.persistence ≤ w.criticalCount + 1 then { w with criticalState := .critical, criticalCount := 0 }
          else { w with criticalCount := w.criticalCount + 1 }
        else { w with criticalCount := 0 }
      | .critical =>
        if x ≤ k.criticalRelease then
          if k.persistence ≤ w.criticalCount + 1 then { w with criticalState := .calm, criticalCount := 0 }
          else { w with criticalCount := w.criticalCount + 1 }
        else { w with criticalCount := 0 }
  else w

/-! ## A sample handled whole (R61) -/

/-- Node critical, which `before` says held or not, has begun or ended: the own entry's flag, then the Round Controller
(R83). -/
def State.criticalChanged (before : Bool) (s : State) : State :=
  if s.nodeCritical = before then s
  else if s.nodeCritical then s.mirrorCritical.propose
  else s.mirrorCritical.withdrawOwn

/-- The local demand is recomputed and a change of it delivered (R20, R76). -/
def State.updateDemand (s : State) : State :=
  let d := s.localDemandNow
  if d = s.localDemand then s
  else
    let s' := { s with localDemand := d }.updateOwn fun e => { e with demand := d }
    if s'.effectiveDemand s.own = s.effectiveDemand s.own then s' else s'.recomputeTargets

/-- The standing verdict is recomputed and a change of it delivered (R86, R87). -/
def State.updateStanding (s : State) : State :=
  if s.standingNow = s.standing then s else { s with standing := s.standingNow }.verdictChanged s.standingNow

/-- Parts 1 to 3 of R61: the record, its reports, and the own entry's sets. -/
def State.observe (c : Channel) (p : Sample) (s : State) : State :=
  (s.setWatch c ((s.watch c).takeSample (s.channelCfg c) p)).offerRecords
    (sampleRecords c (s.channelCfg c) p (s.watch c)) |>.mirrorSets

/-- Part 4 of R61: the critical machine, and the beginning or end of node critical (R83; log 17). -/
def State.judgeCritical (c : Channel) (p : Sample) (s : State) : State :=
  (s.setWatch c ((s.watch c).criticalStep (s.channelCfg c) p)).criticalChanged s.nodeCritical

/-- A sample for channel `c` is handled as one whole (R61). -/
def State.takeSample (c : Channel) (p : Sample) (s : State) : State :=
  ((s.observe c p).judgeCritical c p).updateDemand.updateStanding

/-! ## Acknowledgement (R71 to R73) -/

/-- The condition a channel would report on acknowledgement, if it is to report one (R72, R73). -/
def ackEvent (m : ReportMode) (w : WatchRecord) : Option AlarmEvent :=
  match m with
  | .edge =>
    if w.condition = w.lastReported then none
    else if w.condition = .raised then some .rise else some .fall
  | .once => if w.unreportedRise ∧ w.condition = .raised then some .rise else none
  | .level | .reserved => none

/-- The record of an UNACKED channel after an acknowledgement (R72, R73). -/
def WatchRecord.acknowledge (m : ReportMode) (w : WatchRecord) : WatchRecord :=
  let w' := { w with reportState := .clear, unreportedRise := if m = .once then false else w.unreportedRise }
  match ackEvent m w with
  | some _ => w'.reported m
  | none => w'

/-- One channel of an acknowledgement (R71). -/
def State.ackChannel (set : ChannelSet) (s : State) (c : Channel) : State :=
  let w := s.watch c
  let k := s.channelCfg c
  if member set c ∧ k.enabled ∧ w.reportState = .unacked then
    let w' := w.acknowledge k.mode
    (s.setWatch c w').offerRecords ((ackEvent k.mode w).toList.map fun e => alarmRecord c k e w')
  else s

/-- An acknowledgement: its channels in ascending order, the own entry's sets, and the standing verdict (R71, R86). -/
def State.acknowledge (set : ChannelSet) (s : State) : State :=
  ((List.finRange 8).foldl (State.ackChannel set) s).mirrorSets.updateStanding

/-- The union of the channel sets of the pairs that name this node (R71). -/
def State.pairsForOwn (s : State) (ps : List AckPair) : ChannelSet :=
  ps.foldl (fun x p => if p.station = s.own then x ||| p.channels else x) 0

/-- An ACK from a peer: the refresh, and the union of its pairs for this node as one acknowledgement (R16, R71). -/
def State.peerAcks (a : Station) (ps : List AckPair) (s : State) : State :=
  let s' := s.refreshPeer a
  if ps.any (·.station == s.own) then s'.acknowledge (s.pairsForOwn ps) else s'

end Sys2Proof.Machine
end

