-- ==== Sys2Proof/Machine/Life.lean ====
section
/-! DEFINITION. The Life Cycle Controller's and the Link Controller's shared operations (07, 09): the passages between node
states, the return of a frame from the wire, and the end of a reception. -/
namespace Sys2Proof.Machine

/-! ## Passages (R155, R161, R163, R165, R169) -/

/-- A passage to LINK_OFF, CONFLICT or QUIET: the queue is emptied, a frame in flight abandoned, the deadlines of the state
left disarmed and the new state's armed, the flag cleared, and the passage delivered (R136, R152, R155, R165). -/
def State.leaveFor (n : NodeState) (s : State) : State :=
  ({ s with
      queue := []
      link := { s.link with inFlight := none }
      life :=
        { nodeState := n
          listenDeadline := none
          recoveryDeadline := if n = NodeState.linkOff then some (s.now + s.cfg.recoveryInterval) else none
          statusDeadline := none
          leavePending := false } }.deliverEligible false).recomputeTargets

/-- An address conflict (R168, R169). -/
def State.addressConflict (s : State) : State :=
  match s.life.nodeState with
  | .listening | .joining | .active | .linkOff => s.leaveFor .conflict
  | .loading | .configFault | .conflict | .quiet => s

/-- The Round Controller takes the entry into ACTIVE and the change of P it causes, in one order or the other (R18, R53,
R155; log 6). -/
def State.takeEntry (entryFirst : Bool) (s : State) : State :=
  if entryFirst then s.roundEntersActive.deliverEligible false else (s.deliverEligible false).roundEntersActive

/-- The node enters ACTIVE, the two deliveries of the entry taken in the given order (R53, R155, R161). -/
def State.enterActiveIn (entryFirst : Bool) (s : State) : State :=
  (({ s with
      life := { s.life with nodeState := .active, statusDeadline := some (s.now + s.cfg.statPeriod) }
      }.offer (.status ())).takeEntry entryFirst).recomputeTargets

/-- The node enters ACTIVE (R161): the order of the two deliveries is the next free choice (log 6). -/
def State.enterActive (s : State) : State :=
  { s with choices := s.choices + 1 }.enterActiveIn (Config.roundTakesEntryFirst s.choices)

/-- The transmit fault limit, with the kind of the discarded frame (R163). -/
def State.faultLimit (k : FrameKind) (s : State) : State :=
  match s.life.nodeState with
  | .joining => s.leaveFor .linkOff
  | .active => if s.life.leavePending || k == .leave then s.leaveFor .quiet else s.leaveFor .linkOff
  | .loading | .configFault | .listening | .linkOff | .conflict | .quiet => s

/-! ## The frame in flight (R131, R133, R134, R147) -/

/-- The frame in flight is returned to the queue, and nothing is in flight (R131, R133, R147). -/
def State.returnFrame (f : Frame) (s : State) : State :=
  { s with queue := returned s.queue f (s.isCurrent f), link := { s.link with inFlight := none } }

/-- What the completion of a frame of this kind does beyond the link (R134). -/
def State.completed (k : FrameKind) (s : State) : State :=
  match k, s.life.nodeState with
  | .join, .joining => s.enterActive
  | .leave, .active => s.leaveFor .quiet
  | _, _ => s

/-! ## Reception (R117, R127, R138 to R140) -/

/-- The receiver passes to WAIT, at the end of an end mark or not (R127). -/
def State.toWait (atEndMark : Bool) (s : State) : State :=
  { s with link := { s.link with receiver := .wait, afterEndMark := atEndMark, ownOnWire := false } }

/-- A frame from station `a` has been received to the end of its end mark. The receiver passes to WAIT. The frame is
delivered to the blocks by `deliver` when it is valid, is not the node's own transmission, and the node takes frames; under
the node's own address it is an address conflict (R5, R116, R117, R138, R139, R140). -/
def State.receive (a : Station) (isValid : Bool) (deliver : State → State) (s : State) : State :=
  if s.link.receiver = .receiving then
    let s' := s.toWait true
    if s.link.ownOnWire || !s.running || !isValid then s'
    else if s.isOwn a then s'.addressConflict
    else deliver s'
  else s

end Sys2Proof.Machine
end

