-- ==== Sys2Proof/Machine/Deadlines.lean ====
section
/-! DEFINITION. The commands of the Life Cycle Controller's and the Round Controller's deadlines (02, 09). -/
namespace Sys2Proof.Machine

/-- The JOIN a node sends, fixed as it is queued (R111). -/
def State.joinFrame (s : State) : Pending := .join s.cfg.signature s.localDemand

/-- LISTENING ends: JOINING, and a JOIN is queued (R155, R159). -/
def State.startJoining (s : State) : State :=
  ({ s with life := { s.life with nodeState := .joining, listenDeadline := none } }.offer s.joinFrame).recomputeTargets

/-- LISTEN_DEADLINE_EXPIRES (R159). -/
def execListenDeadlineExpires (s : State) : Host.Outcome State Fault Refusal :=
  .next (if s.life.nodeState = .listening ∧ expired s.life.listenDeadline s.now then s.startJoining else s)

/-- LINK_OFF ends: LISTENING, with the listen deadline armed and the fault count 0 (R135, R155, R164). -/
def State.recover (s : State) : State :=
  ({ s with
    life := { s.life with
      nodeState := .listening, recoveryDeadline := none, listenDeadline := some (s.now + s.cfg.listenInterval) }
    link := { s.link with faults := 0 } }).recomputeTargets

/-- RECOVERY_DEADLINE_EXPIRES (R164). -/
def execRecoveryDeadlineExpires (s : State) : Host.Outcome State Fault Refusal :=
  .next (if s.life.nodeState = .linkOff ∧ expired s.life.recoveryDeadline s.now then s.recover else s)

/-- The status timer asks for a STATUS and is armed again (R162). -/
def State.askStatus (s : State) : State :=
  { s with life := { s.life with statusDeadline := some (s.now + s.cfg.statPeriod) } }.offer (.status ())

/-- STATUS_DEADLINE_EXPIRES (R162). -/
def execStatusDeadlineExpires (s : State) : Host.Outcome State Fault Refusal :=
  .next (if s.life.nodeState = .active ∧ expired s.life.statusDeadline s.now then s.askStatus else s)

/-- ROUND_DEADLINE_EXPIRES: the round is abandoned and the proposal test made (R40, R41). -/
def execRoundDeadlineExpires (s : State) : Host.Outcome State Fault Refusal :=
  .next (if s.round.state = .opened ∧ expired s.round.roundDeadline s.now then s.abandon.propose else s)

/-- GRACE_DEADLINE_EXPIRES: the latch is asserted and the record HALTED (R45). -/
def execGraceDeadlineExpires (s : State) : Host.Outcome State Fault Refusal :=
  .next (if s.round.state = .committed ∧ expired s.round.graceDeadline s.now then s.halt else s)

end Sys2Proof.Machine
end

