-- ==== Sys2Proof/Machine/Operands.lean ====
section
/-! DEFINITION. The operand forms: the sample word (R122, R57), the validity of a received frame's fields (R115), and the
numbers that diagnostic arguments and image bytes spell. -/
namespace Sys2Proof.Machine

/-! ## The sample word (R56, R57, R122) -/

/-- Bits 15–13 of a sample word: its channel. -/
def wordChannel (w : Word16) : Channel := ⟨(w.toNat / 8192) % 8, Nat.mod_lt _ (by decide)⟩

/-- Bit 12 of a sample word: its fault bit. -/
def wordFault (w : Word16) : Bool := w.getLsbD 12

/-- Bits 11–2 of a sample word: its reading, ten bits in two's complement. -/
def wordReading (w : Word16) : HalfDegrees := (w.extractLsb' 2 10).toInt

/-- Bits 1–0 of a sample word are both zero. -/
def wordSpareClear (w : Word16) : Bool := w.extractLsb' 0 2 == 0

/-- The legal range of a temperature (00 "Temperatures"). -/
def legalReading (x : HalfDegrees) : Bool := decide (-128 ≤ x ∧ x ≤ 383)

/-- The sample a word gives (R57). -/
def classify (w : Word16) : Sample :=
  if wordFault w || !legalReading (wordReading w) then .fault else .valid (wordReading w)

/-! ## Validity of a received frame's fields (R110, R115) -/

/-- A valid ALARM record (R115). -/
def validRecord (r : AlarmRecord) : Bool := legalReading r.reading && (r.event != .fault || r.reading == 0)

/-- A valid STATUS pairs an OPEN round state with a non-empty proposer set, and any other with an empty one (R115). -/
def validStatus (f : StatusFields) : Bool := (f.roundState == .opened) == (f.proposers != 0)

/-- The tests of R115 on a frame's fields: those of its kind, class and code are met by the constructor. -/
def validFrame : Frame → Bool
  | .join _ _ => true
  | .status f => validStatus f
  | .alarm rs => decide (1 ≤ rs.length) && decide (rs.length ≤ 16) && rs.all validRecord
  | .ack ps => decide (1 ≤ ps.length) && decide (ps.length ≤ 4) && ps.all (·.channels != 0)
  | .propose _ _ x => legalReading x
  | .vote _ _ => true
  | .withdraw _ => true
  | .commit _ _ => true
  | .leave => true

/-! ## Diagnostic arguments (R124, R179) -/

/-- The number of at most `n` things a byte spells, if it is in range (R179). -/
def inRange (n : Nat) (b : Byte) : Option (Fin n) := if h : b.toNat < n then some ⟨b.toNat, h⟩ else none

/-- The fan a byte names: 0 fan A, 1 fan B (R124). -/
def fanOfByte (b : Byte) : Option FanId := if b = 0 then some .a else if b = 1 then some .b else none

/-- The code of UNKNOWN_COMMAND is not one of 1..8 (R179). -/
def isUnknownCode (b : Byte) : Bool := b.toNat == 0 || decide (8 < b.toNat)

end Sys2Proof.Machine
end

