-- ==== Sys2Proof/Machine/Wire.lean ====
section
/-! DEFINITION. The layouts of 06 section 6.6 and the bits of 07: a frame's payload bytes, its envelope, its check, stuffing
and marks, the readback of a frame the node sends, and a reception. These functions say what bits a frame is, and what a node
reads back of its own frame (log 24). -/
namespace Sys2Proof.Machine

/-! ## Field codes (R110, R120) -/

/-- A kind by its code (R110). -/
def kindOfCode (b : BitVec 4) : Option FrameKind :=
  match b.toNat with
  | 1 => some .join
  | 2 => some .status
  | 3 => some .alarm
  | 4 => some .ack
  | 5 => some .propose
  | 6 => some .vote
  | 7 => some .withdraw
  | 8 => some .commit
  | 9 => some .leave
  | _ => none

def roundStateCode : RoundState → Nat
  | .idle => 0
  | .opened => 1
  | .committed => 2
  | .halted => 3

def roundStateOfCode : Nat → RoundState
  | 0 => .idle
  | 1 => .opened
  | 2 => .committed
  | _ => .halted

def verdictCode : Option Verdict → Nat
  | none => 0
  | some .concur => 1
  | some .refuse => 2

/-- A STATUS verdict by its code; 3 is malformed (R120). -/
def verdictOfCode : Nat → Option (Option Verdict)
  | 0 => some none
  | 1 => some (some .concur)
  | 2 => some (some .refuse)
  | _ => none

def alarmEventCode : AlarmEvent → Nat
  | .rise => 0
  | .fall => 1
  | .fault => 2
  | .restore => 3

def alarmEventOfCode : Nat → AlarmEvent
  | 0 => .rise
  | 1 => .fall
  | 2 => .fault
  | _ => .restore

/-! ## Payloads (R120, R121) -/

/-- Two bytes, most significant first (R120). -/
def wordBytes (w : Word16) : List Byte := [w.extractLsb' 8 8, w.extractLsb' 0 8]

/-- The 16-bit value two bytes spell. -/
def bytesWord (hi lo : Byte) : Word16 := hi ++ lo

/-- A reading in a 2-byte field (R120). -/
def readingBytes (x : HalfDegrees) : List Byte := wordBytes (BitVec.ofInt 16 x)

/-- The flags byte of a STATUS (R121). -/
def flagsByte (fanA fanB critical held : Bool) : Byte :=
  (0 : BitVec 4) ++ BitVec.ofBool held ++ BitVec.ofBool critical ++ BitVec.ofBool fanB ++ BitVec.ofBool fanA

/-- The byte of a STATUS that holds round state and verdict (R121). -/
def roundByte (r : RoundState) (v : Option Verdict) : Byte :=
  (0 : BitVec 4) ++ BitVec.ofNat 2 (verdictCode v) ++ BitVec.ofNat 2 (roundStateCode r)

/-- An ALARM record's 16 bits (R121). -/
def recordWord (r : AlarmRecord) : Word16 :=
  BitVec.ofNat 3 r.channel.val ++ BitVec.ofNat 2 (alarmEventCode r.event) ++ BitVec.ofBool r.needsAck
    ++ BitVec.ofInt 10 r.reading

/-- The ALARM record 16 bits spell (R121). -/
def wordRecord (w : Word16) : AlarmRecord :=
  { channel := wordChannel w
    event := alarmEventOfCode (w.extractLsb' 11 2).toNat
    needsAck := w.getLsbD 10
    reading := (w.extractLsb' 0 10).toInt }

/-- A pair's two bytes (R121). -/
def pairBytes (p : AckPair) : List Byte := [BitVec.ofNat 8 p.station.val, p.channels]

/-- The payload of a frame (R121). -/
def payloadOf : Frame → List Byte
  | .join g d => wordBytes g ++ [d]
  | .status f =>
    [f.demand, f.raised, f.unacked, f.faulted, flagsByte f.fanAFailed f.fanBFailed f.critical f.shutdownHeld,
      f.roundNumber, roundByte f.roundState f.verdict] ++ wordBytes f.proposers ++ wordBytes f.signature
  | .alarm rs => rs.flatMap fun r => wordBytes (recordWord r)
  | .ack ps => ps.flatMap pairBytes
  | .propose r c x => [r, BitVec.ofNat 8 c.val] ++ readingBytes x
  | .vote r v => [r, BitVec.ofNat 8 (verdictCode (some v))]
  | .withdraw r => [r]
  | .commit r cs => [r] ++ wordBytes cs
  | .leave => []

/-- The frame that station `a` puts on the wire for these contents (R110, R119). -/
def encodeRaw (a : Station) (f : Frame) : RawFrame :=
  { cls := BitVec.ofNat 3 f.kind.cls
    source := BitVec.ofNat 4 a.val
    kind := BitVec.ofNat 4 f.kind.code
    payload := payloadOf f }

/-! ## Reading a payload back, with the tests of R115 -/

/-- The records of an ALARM payload; an odd length spells none. -/
def readRecords : List Byte → Option (List AlarmRecord)
  | [] => some []
  | hi :: lo :: rest => (readRecords rest).map (wordRecord (bytesWord hi lo) :: ·)
  | [_] => none

/-- The pairs of an ACK payload; a station of 16 or more, or an odd length, spells none (R115). -/
def readPairs : List Byte → Option (List AckPair)
  | [] => some []
  | s :: c :: rest =>
    match inRange 16 s, readPairs rest with
    | some a, some ps => some ({ station := a, channels := c } :: ps)
    | _, _ => none
  | [_] => none

/-- The STATUS fields eleven bytes spell; a verdict code of 3 spells none (R115, R121). -/
def readStatus (d raised unacked faulted flags r rv p₁ p₀ g₁ g₀ : Byte) : Option StatusFields :=
  (verdictOfCode (rv.extractLsb' 2 2).toNat).map fun v =>
    { demand := d
      raised := raised
      unacked := unacked
      faulted := faulted
      fanAFailed := flags.getLsbD 0
      fanBFailed := flags.getLsbD 1
      critical := flags.getLsbD 2
      shutdownHeld := flags.getLsbD 3
      roundNumber := r
      roundState := roundStateOfCode (rv.extractLsb' 0 2).toNat
      verdict := v
      proposers := bytesWord p₁ p₀
      signature := bytesWord g₁ g₀ }

/-- The channel of a PROPOSE: bits 2–0 of its byte (R121). -/
def channelOfByte (b : Byte) : Channel := ⟨b.toNat % 8, Nat.mod_lt _ (by decide)⟩

/-- The contents a payload of this kind spells, if its length is allowed and its codes are legal (R110, R115, R121). -/
def readPayload : FrameKind → List Byte → Option Frame
  | .join, [g₁, g₀, d] => some (.join (bytesWord g₁ g₀) d)
  | .status, [d, ra, ua, fa, fl, r, rv, p₁, p₀, g₁, g₀] =>
    (readStatus d ra ua fa fl r rv p₁ p₀ g₁ g₀).map .status
  | .alarm, l => (readRecords l).map .alarm
  | .ack, l => (readPairs l).map .ack
  | .propose, [r, c, x₁, x₀] => some (.propose r (channelOfByte c) (bytesWord x₁ x₀).toInt)
  | .vote, [r, v] =>
    match verdictOfCode v.toNat with
    | some (some u) => some (.vote r u)
    | _ => none
  | .withdraw, [r] => some (.withdraw r)
  | .commit, [r, c₁, c₀] => some (.commit r (bytesWord c₁ c₀))
  | .leave, [] => some .leave
  | _, _ => none

/-- The sender and contents of a received frame, if it is valid; `none` is a malformed frame (R115). -/
def decodeRaw (w : RawFrame) : Option (Station × Frame) :=
  match kindOfCode w.kind with
  | none => none
  | some k =>
    if w.cls = BitVec.ofNat 3 k.cls then
      match readPayload k w.payload with
      | none => none
      | some f => if validFrame f then some (⟨w.source.toNat, w.source.isLt⟩, f) else none
    else none

/-! ## The check and the envelope (R118, R119) -/

/-- The bits of a field, most significant first (R119). -/
def bitsOf {w : Nat} (x : BitVec w) : List Bool := (List.finRange w).map fun i => x.getMsbD i.val

/-- The value that bits spell, most significant first. -/
def valueOf (l : List Bool) : Nat := l.foldl (fun n b => 2 * n + b.toNat) 0

/-- The bits the check is computed over: key, kind, length and payload (R118, R119). -/
def checkedBits (w : RawFrame) : List Bool :=
  bitsOf w.cls ++ bitsOf w.source ++ bitsOf w.kind ++ bitsOf (BitVec.ofNat 6 w.payload.length)
    ++ w.payload.flatMap bitsOf

/-- One bit into the check register (R118). -/
def checkStep (reg : Word16) (b : Bool) : Word16 :=
  let shifted := reg <<< 1
  if (b ^^ reg.getLsbD 15) then shifted ^^^ 0x8D95 else shifted

/-- The check of a sequence of bits (R118). -/
def frameCheck (l : List Bool) : Word16 := l.foldl checkStep 0xFFFF

/-- Every field bit between start mark and end mark, before stuffing (R119). -/
def fieldBits (w : RawFrame) : List Bool := checkedBits w ++ bitsOf (frameCheck (checkedBits w))

/-! ## Stuffing and marks (R126). A dominant bit is `false`, a recessive bit `true`. -/

/-- The longest run of equal bits between the marks (R126). -/
def longestRun : Nat := 6

/-- The run length once bit `b` follows a run of `run` bits at `lvl`. -/
def nextRun (lvl : Bool) (run : Nat) (b : Bool) : Nat := if b = lvl then run + 1 else 1

/-- The bits with stuff bits inserted, after a run of `run` bits at level `lvl` (R126). -/
def stuff (lvl : Bool) (run : Nat) : List Bool → List Bool
  | [] => if run = longestRun then [!lvl] else []
  | b :: rest =>
    if run = longestRun then (!lvl) :: b :: stuff b (nextRun (!lvl) 1 b) rest
    else b :: stuff b (nextRun lvl run b) rest

/-- The end mark: eight recessive bits (R126). -/
def endMark : List Bool := List.replicate 8 true

/-- A whole frame on the wire: start mark, stuffed fields, end mark (R126). -/
def wireBits (w : RawFrame) : List Bool := false :: stuff false 1 (fieldBits w) ++ endMark

/-- The bits of the frame in flight: what the node drives onto the wire (R126, R128). -/
def State.drivenBits (s : State) : Option (List Bool) := s.link.inFlight.map fun f => wireBits (encodeRaw s.own f)

/-! ## Readback (R130, R132) -/

/-- What the Link Controller makes of one bit it has sent and read back. -/
inductive BitOutcome where
  | goesOn | lost | faulted
  deriving DecidableEq, Repr

/-- A bit sent and read within the arbitration key, by the table of R130. -/
def keyOutcome (sent read : Bool) : BitOutcome :=
  match sent, read with
  | false, false => .goesOn
  | true, true => .goesOn
  | true, false => .lost
  | false, true => .faulted

/-- A bit sent and read outside the key: any difference is a fault (R132). -/
def bitOutcome (sent read : Bool) : BitOutcome := if sent = read then .goesOn else .faulted

/-- The bit periods that carry these field bits and the stuff bits before them, after a run of `run` bits at `lvl` (R126). -/
def periods (lvl : Bool) (run : Nat) : List Bool → Nat
  | [] => 0
  | b :: rest =>
    if run = longestRun then 2 + periods b (nextRun (!lvl) 1 b) rest else 1 + periods b (nextRun lvl run b) rest

/-- The seven bits of the arbitration key (R130). -/
def keyBits (w : RawFrame) : List Bool := bitsOf w.cls ++ bitsOf w.source

/-- The bit periods of the key: they follow the start mark, stuff bits between key bits among them (R126, R130; log 29). -/
def keyPeriods (w : RawFrame) : Nat := periods false 1 (keyBits w)

/-- How far a transmission has come by the levels read back: it goes on, was driven to its end, lost arbitration, or met a
fault. -/
inductive Readback where
  | driving | completed | lost | faulted
  deriving DecidableEq, Repr

/-- The bits still to send against the levels still to read, bit by bit, with `key` bit periods of the key to come; the first
bit that does not go on decides (R131, R132). -/
def readBackFrom : Nat → List Bool → List Bool → Readback
  | _, [], _ => .completed
  | _, _ :: _, [] => .driving
  | key, b :: bs, r :: rs =>
    match (if key = 0 then bitOutcome b r else keyOutcome b r) with
    | .goesOn => readBackFrom (key - 1) bs rs
    | .lost => .lost
    | .faulted => .faulted

/-- A whole frame against the levels the wire carried: the start mark, which lies outside the key, then the rest (R130,
R132). -/
def readBack (w : RawFrame) (wire : List Bool) : Readback :=
  match wire with
  | [] => .driving
  | r :: rs =>
    match bitOutcome false r with
    | .goesOn => readBackFrom (keyPeriods w) (stuff false 1 (fieldBits w) ++ endMark) rs
    | .lost => .lost
    | .faulted => .faulted

/-- The node has won arbitration: it has driven the start mark and the whole key, every bit read back as sent (R130). -/
def wonArbitration (w : RawFrame) (wire : List Bool) : Bool :=
  decide (keyPeriods w < wire.length) && wire.take (keyPeriods w + 1) == (wireBits w).take (keyPeriods w + 1)

/-- What the node makes of the levels it has read back of frame `f`: those known at its beginning, and then `more` (R130,
R132; log 13). -/
def State.readsBack (s : State) (f : Frame) (more : List Bool) : Readback :=
  readBack (encodeRaw s.own f) (s.link.levels ++ more)

/-- By the levels known, the node has won arbitration with frame `f` and has met no fault since (R130, R132). -/
def State.readsTrue (s : State) (f : Frame) : Bool :=
  wonArbitration (encodeRaw s.own f) s.link.levels && s.readsBack f [] != .faulted

/-! ## Reception (R137, R138) -/

/-- What taking field bits off the wire gives: too few bits yet, a stuff violation, or the bits with the level and run after
them and what is left. -/
inductive Unstuffed where
  | short
  | violation
  | done (bits : List Bool) (lvl : Bool) (run : Nat) (rest : List Bool)
  deriving DecidableEq, Repr

/-- One more field bit before those already taken. -/
def Unstuffed.cons (b : Bool) : Unstuffed → Unstuffed
  | .done l lvl run rest => .done (b :: l) lvl run rest
  | u => u

/-- Takes `n` field bits off the wire, and a stuff bit wherever one belongs (R126, R137). -/
def unstuff (n : Nat) (lvl : Bool) (run : Nat) : List Bool → Unstuffed
  | [] => if run = longestRun ∨ n ≠ 0 then .short else .done [] lvl run []
  | b :: rest =>
    if run = longestRun then (if b = lvl then .violation else unstuff n b 1 rest)
    else
      match n with
      | 0 => .done [] lvl run (b :: rest)
      | m + 1 => (unstuff m b (nextRun lvl run b) rest).cons b

/-- What a receiver in RECEIVING makes of the bits so far. -/
inductive Reception where
  | unfinished
  | failed (cause : ReceptionCause)
  | received (frame : RawFrame)
  deriving DecidableEq, Repr

/-- The end mark is read, the check having passed (R137, R138). -/
def readEndMark (w : RawFrame) (rest : List Bool) : Reception :=
  if (rest.take 8).any (!·) then .failed .endMarkDominant
  else if rest.length < 8 then .unfinished
  else .received w

/-- The bytes that bits spell, eight at a time. -/
def bytesOf : Nat → List Bool → List Byte
  | 0, _ => []
  | n + 1, l => BitVec.ofNat 8 (valueOf (l.take 8)) :: bytesOf n (l.drop 8)

/-- The frame that 17 header bits and the payload bits spell. -/
def rawOf (header payload : List Bool) : RawFrame :=
  { cls := BitVec.ofNat 3 (valueOf (header.take 3))
    source := BitVec.ofNat 4 (valueOf ((header.drop 3).take 4))
    kind := BitVec.ofNat 4 (valueOf ((header.drop 7).take 4))
    payload := bytesOf (valueOf (header.drop 11)) payload }

/-- A reception, from the bits after the start mark (R137): the header, as many payload bytes as the length field gives, the
check, and the end mark. -/
def reception (l : List Bool) : Reception :=
  match unstuff 17 false 1 l with
  | .short => .unfinished
  | .violation => .failed .stuffViolation
  | .done header lvl run rest =>
    match unstuff (8 * valueOf (header.drop 11)) lvl run rest with
    | .short => .unfinished
    | .violation => .failed .stuffViolation
    | .done payload lvl' run' rest' =>
      match unstuff 16 lvl' run' rest' with
      | .short => .unfinished
      | .violation => .failed .stuffViolation
      | .done check _ _ rest'' =>
        if check = bitsOf (frameCheck (header ++ payload)) then readEndMark (rawOf header payload) rest''
        else .failed .checkMismatch

/-- The command a valid frame comes as (R117). -/
def receiveCommand (a : Station) : Frame → Instr
  | .join g d => .receiveJoin a g d
  | .status f => .receiveStatus a f
  | .alarm rs => .receiveAlarm a rs
  | .ack ps => .receiveAck a ps
  | .propose r c x => .receivePropose a r c x
  | .vote r v => .receiveVote a r v
  | .withdraw r => .receiveWithdraw a r
  | .commit r cs => .receiveCommit a r cs
  | .leave => .receiveLeave a

/-- The command that the end of a reception is (R115, R116, R137, R138); none while it is unfinished. -/
def receptionCommand : Reception → Option Instr
  | .unfinished => none
  | .failed c => some (.receptionFailure c)
  | .received w =>
    match decodeRaw w with
    | some (a, f) => some (receiveCommand a f)
    | none => some (.malformedFrameDiscarded w)

end Sys2Proof.Machine
end

