-- ==== Sys2Proof/Machine/Items.lean ====
section
/-! DEFINITION. The items of the diagnostic responses and their bytes (06 R124, 11 R180 to R184; log 14). -/
namespace Sys2Proof.Machine

/-! ## Encodings (R124) -/

/-- A flag as a byte. -/
def flagItem (b : Bool) : List Byte := [if b then 1 else 0]

/-- A count or code as a byte. -/
def countItem (n : Nat) : List Byte := [BitVec.ofNat 8 n]

/-- An item that may be absent: a presence byte, then the item (R124). -/
def optionalItem {α : Type} (o : Option α) (enc : α → List Byte) : List Byte :=
  match o with
  | none => [0]
  | some x => 1 :: enc x

/-- A time in milliseconds, saturating (R179, R182). -/
def millisItem (t : Millis) : List Byte := wordBytes (BitVec.ofNat 16 (min t Config.maxReportedTime))

/-- The time remaining on a deadline, 0xFFFF where it is disarmed (R124, R179). -/
def deadlineItem (now : Millis) : Deadline → List Byte
  | none => [0xFF, 0xFF]
  | some t => millisItem (t - now)

def nodeStateCode : NodeState → Nat
  | .loading => 0
  | .configFault => 1
  | .listening => 2
  | .joining => 3
  | .active => 4
  | .linkOff => 5
  | .conflict => 6
  | .quiet => 7

/-- The configuration fault codes of R173. -/
def faultCodeNumber : FaultCode → Nat
  | .memorySilent => 1
  | .checksum => 2
  | .stationAddress => 3
  | .quorum => 4
  | .timers => 5
  | .channelLimits => 6
  | .curve => 7
  | .fanParameters => 8

def presenceCode : Presence → Nat
  | .absent => 0
  | .present => 1
  | .silent => 2
  | .departed => 3

def signatureStateCode : SignatureState → Nat
  | .unknown => 0
  | .isMatch => 1
  | .mismatch => 2

def reportModeCode : ReportMode → Nat
  | .level => 0
  | .edge => 1
  | .once => 2
  | .reserved => 3

def conditionCode : Condition → Nat
  | .normal => 0
  | .raised => 1

def forcingCode : Forcing → Nat
  | .nodeState => 0
  | .roundDecided => 1
  | .shutdownLatch => 2
  | .otherFan => 3

/-- The reason byte and the detail byte of R184. -/
def reasonItem : TargetReason → List Byte
  | .forced c => [0, BitVec.ofNat 8 (forcingCode c)]
  | .floor => [1, 0xFF]
  | .station a => [2, BitVec.ofNat 8 a.val]

/-- The reading as a kind byte and a 2-byte reading (R183). -/
def readingItem : Reading → List Byte
  | .absent => 0 :: readingBytes 0
  | .value x => 1 :: readingBytes x
  | .fault => 2 :: readingBytes 0

/-- The set of pending kinds: bit n for the kind of code n (R180). -/
def pendingKindSet (q : List Pending) : Word16 :=
  q.foldl (fun x f => x ||| BitVec.ofNat 16 (2 ^ f.kind.code)) 0

/-! ## The items of each command -/

/-- NODE (R180). -/
def State.nodeItems (s : State) : List Byte :=
  countItem (nodeStateCode s.life.nodeState)
    ++ optionalItem s.loader.faultCode (fun c => countItem (faultCodeNumber c))
    ++ optionalItem s.image (fun g => countItem g.address.val)
    ++ optionalItem s.image (fun g => wordBytes g.signature)
    ++ deadlineItem s.now s.life.listenDeadline
    ++ deadlineItem s.now s.life.recoveryDeadline
    ++ deadlineItem s.now s.life.statusDeadline
    ++ flagItem s.life.leavePending
    ++ countItem s.link.faults
    ++ optionalItem s.link.inFlight (fun f => countItem f.kind.code)
    ++ wordBytes (pendingKindSet s.queue)
    ++ countItem s.eligible
    ++ flagItem s.alert

/-- The stations holding a verdict in the votes map (R181). -/
def State.votesFor (v : Verdict) (s : State) : StationSet := membersWhere fun a => s.round.votes[a] == some v

/-- ROUND (R181). -/
def State.roundItems (s : State) : List Byte :=
  countItem (roundStateCode s.round.state) ++ [s.round.number, s.round.lastClosed] ++ wordBytes s.round.proposers
    ++ optionalItem s.round.reason
      (fun r => countItem r.station.val ++ countItem r.channel.val ++ readingBytes r.reading)
    ++ wordBytes (s.votesFor .concur)
    ++ wordBytes (s.votesFor .refuse)
    ++ optionalItem s.round.ownVerdict (fun v => countItem (verdictCode (some v)))
    ++ countItem (verdictCode (some s.standing))
    ++ deadlineItem s.now s.round.roundDeadline
    ++ deadlineItem s.now s.round.graceDeadline
    ++ optionalItem s.round.concurSet wordBytes
    ++ flagItem s.shutdownLatch
    ++ countItem s.concurCount
    ++ countItem s.quorum

/-- The reported round of an entry (R182). -/
def reportedItem (r : ReportedRound) : List Byte :=
  r.number :: countItem (roundStateCode r.state) ++ countItem (verdictCode r.verdict) ++ wordBytes r.proposers

/-- PEER (R182). -/
def State.peerItems (a : Station) (s : State) : List Byte :=
  let e := s.peer a
  countItem (presenceCode e.presence) ++ countItem (signatureStateCode e.signatureState)
    ++ optionalItem e.signature wordBytes
    ++ [e.demand, e.raised, e.unacked, e.faulted, flagsByte e.fanAFailed e.fanBFailed e.critical e.shutdownHeld]
    ++ optionalItem e.reported reportedItem
    ++ optionalItem e.lastHeard (fun t => millisItem (s.now - t))
    ++ deadlineItem s.now e.silenceDeadline
    ++ deadlineItem s.now e.lostDeadline
    ++ [s.effectiveDemand a]

/-- CHANNEL (R183). The hysteresis takes one byte, as in the image (R123), a choice of the model: R124 names temperatures, at
two bytes, and counts, at one, but no hysteresis (log 14). -/
def State.channelItems (c : Channel) (s : State) : List Byte :=
  let k := s.channelCfg c
  let w := s.watch c
  flagItem k.enabled ++ countItem (reportModeCode k.mode) ++ flagItem k.corroborating ++ flagItem k.criticalEnabled
    ++ countItem k.persistence ++ countItem k.hysteresis
    ++ readingBytes k.highLimit ++ readingBytes k.criticalHigh ++ readingBytes k.criticalRelease
    ++ readingItem w.reading
    ++ countItem (conditionCode w.condition) ++ countItem w.riseCount ++ countItem w.fallCount
    ++ flagItem (w.reportState == .unacked) ++ countItem (conditionCode w.lastReported) ++ flagItem w.unreportedRise
    ++ flagItem w.faulted
    ++ flagItem (w.criticalState == .critical) ++ countItem w.criticalCount
    ++ flagItem (s.corroborates c)
    ++ optionalItem (channelDemand k w) (fun d => [d])

/-- FAN (R184). -/
def State.fanItems (f : FanId) (s : State) : List Byte :=
  let r := s.fan f
  flagItem (r.condition == .failed) ++ [r.duty, r.target] ++ reasonItem r.reason
    ++ deadlineItem s.now r.fallDeadline ++ deadlineItem s.now r.windowDeadline
    ++ countItem r.stallCount ++ countItem r.goodCount ++ flagItem r.windowQualifies ++ flagItem r.edgeSeen

end Sys2Proof.Machine
end

