-- ==== Sys2Proof/Machine/Diagnostics.lean ====
section
/-! DEFINITION. The commands of the Diagnostic Port (11), each a request taken whole: judged, acted on, and answered. -/
namespace Sys2Proof.Machine

/-- The result codes (R124). -/
inductive DiagResult where
  | ok | busy | notReady | badArgument | refused
  deriving DecidableEq, Repr

/-- The byte of a result (R124). -/
def resultCode : DiagResult → Byte
  | .ok => 0
  | .busy => 1
  | .notReady => 2
  | .badArgument => 3
  | .refused => 4

/-- The response: result code, length, items (R124). -/
def responseBytes (r : DiagResult) (items : List Byte) : List Byte :=
  resultCode r :: BitVec.ofNat 8 items.length :: items

/-- The response is built whole and the transaction enters its response phase (R178). -/
def State.respond (r : DiagResult) (items : List Byte) (s : State) : State :=
  { s with port := some (.response (responseBytes r items) 0) }

/-- A request taken whole is judged and acted on, except while the RESET line holds the port at its reset values (R156,
R178; log 4). -/
def State.serve (act : State → State) (s : State) : State := if s.resetLine then s else act s

/-- Tests 2 and 3 of R179 for a command other than NODE, whose argument is `none` where it is out of range. -/
def State.judge {α : Type} (argument : Option α) (act : α → State → State) (s : State) : State :=
  if s.running then
    match argument with
    | some x => act x s
    | none => s.respond .badArgument []
  else s.respond .notReady []

/-- A command that reads: OK with its items, and nothing else changes (R179). -/
def State.report (items : State → List Byte) (s : State) : State := s.respond .ok (items s)

/-- The channel set of an acknowledgement, which may not be empty (R179). -/
def channelArgument (x : ChannelSet) : Option ChannelSet := if x = 0 then none else some x

/-- The arguments of ACK_REMOTE, both in range (R179). -/
def remoteArgument (a : Byte) (x : ChannelSet) : Option AckPair :=
  match inRange 16 a, channelArgument x with
  | some n, some y => some { station := n, channels := y }
  | _, _ => none

/-- An acknowledgement of the node's own channels, answered OK (R185). -/
def State.acknowledgeOwn (x : ChannelSet) (s : State) : State := (s.acknowledge x).respond .ok []

/-- A pair for station `a` would name a fifth station (R114, R145, R185). -/
def State.ackFull (s : State) (a : Station) : Bool :=
  !member s.ackStations a && decide (Config.ackStationLimit ≤ s.ackStationCount)

/-- ACK_REMOTE, its arguments in range (R185). -/
def State.acknowledgeRemote (p : AckPair) (s : State) : State :=
  if p.station = s.own then s.acknowledgeOwn p.channels
  else if !s.isActive then s.respond .notReady []
  else if s.ackFull p.station then s.respond .busy []
  else (s.offer (.ack [p])).respond .ok []

/-- An accepted LEAVE: a LEAVE is queued and the flag set (R166). -/
def State.acceptLeave (s : State) : State :=
  let s' := s.offer .leave
  { s' with life := { s'.life with leavePending := true } }

/-- LEAVE (R186). -/
def State.askLeave (s : State) : State :=
  if s.round.state ≠ .idle then s.respond .refused []
  else if !s.isActive then s.respond .notReady []
  else s.acceptLeave.respond .ok []

/-- NODE (R179, R180). -/
def execNode (s : State) : Host.Outcome State Fault Refusal :=
  .next (s.serve (State.report State.nodeItems))

/-- ROUND (R181). -/
def execRound (s : State) : Host.Outcome State Fault Refusal :=
  .next (s.serve (State.judge (some ()) fun _ => State.report State.roundItems))

/-- PEER (R182). -/
def execPeer (a : Byte) (s : State) : Host.Outcome State Fault Refusal :=
  .next (s.serve (State.judge (inRange 16 a) fun n => State.report (State.peerItems n)))

/-- CHANNEL (R183). -/
def execChannel (c : Byte) (s : State) : Host.Outcome State Fault Refusal :=
  .next (s.serve (State.judge (inRange 8 c) fun n => State.report (State.channelItems n)))

/-- FAN (R184). -/
def execFan (f : Byte) (s : State) : Host.Outcome State Fault Refusal :=
  .next (s.serve (State.judge (fanOfByte f) fun n => State.report (State.fanItems n)))

/-- ACK_LOCAL (R185). -/
def execAckLocal (x : ChannelSet) (s : State) : Host.Outcome State Fault Refusal :=
  .next (s.serve (State.judge (channelArgument x) State.acknowledgeOwn))

/-- ACK_REMOTE (R185). -/
def execAckRemote (a : Byte) (x : ChannelSet) (s : State) : Host.Outcome State Fault Refusal :=
  .next (s.serve (State.judge (remoteArgument a x) State.acknowledgeRemote))

/-- LEAVE (R186). -/
def execLeave (s : State) : Host.Outcome State Fault Refusal :=
  .next (s.serve (State.judge (some ()) fun _ => State.askLeave))

/-- UNKNOWN_COMMAND: BAD_ARGUMENT in every node state. A code of 1..8 is no unknown command and has no effect here (R178,
R179; log 28). -/
def execUnknownCommand (code : Byte) (s : State) : Host.Outcome State Fault Refusal :=
  .next (if isUnknownCode code then s.serve (State.respond .badArgument []) else s)

end Sys2Proof.Machine
end

