-- ==== Sys2Proof/Machine/Fans.lean ====
section
/-! DEFINITION. The commands of the Airflow Controller (05 sections 5.4 and 5.5): TACH_EDGE, WINDOW_DEADLINE_EXPIRES,
FALL_DEADLINE_EXPIRES. -/
namespace Sys2Proof.Machine

/-- TACH_EDGE: sets the edge seen flag while the window deadline is armed (R99). -/
def execTachEdge (f : FanId) (s : State) : Host.Outcome State Fault Refusal :=
  .next (if (s.fan f).windowDeadline.isSome then s.setFan f { s.fan f with edgeSeen := true } else s)

/-- The closed window is judged; a change of fan state recomputes both targets and then reaches the own entry (R101, R102,
R103). -/
def State.closeWindow (f : FanId) (s : State) : State :=
  let s' := s.setFan f (s.fan f).judgeWindow
  if (s'.fan f).condition = (s.fan f).condition then s' else s'.recomputeTargets.mirrorFans

/-- The next window opens (R98). -/
def State.nextWindow (f : FanId) (s : State) : State := s.setFan f ((s.fan f).openWindow s.now s.cfg.stallFloor)

/-- WINDOW_DEADLINE_EXPIRES: the window closes and the next opens (R98). -/
def execWindowDeadlineExpires (f : FanId) (s : State) : Host.Outcome State Fault Refusal :=
  .next (if expired (s.fan f).windowDeadline s.now then (s.closeWindow f).nextWindow f else s)

/-- FALL_DEADLINE_EXPIRES: the duty steps down toward the target (R96). -/
def execFallDeadlineExpires (f : FanId) (s : State) : Host.Outcome State Fault Refusal :=
  .next (if expired (s.fan f).fallDeadline s.now
    then s.setFan f ((s.fan f).stepDown s.now s.cfg.fallStep s.cfg.stallFloor) else s)

end Sys2Proof.Machine
end

