-- ==== Sys2Proof/Machine/Frames.lean ====
section
/-! DEFINITION. The commands of frames heard and of the Peer Table's deadlines (01, 02, 06 section 6.5): the nine RECEIVE_
commands, SILENCE_DEADLINE_EXPIRES and LOST_DEADLINE_EXPIRES. -/
namespace Sys2Proof.Machine

/-- SILENCE_DEADLINE_EXPIRES: a PRESENT entry becomes SILENT, or DEPARTED where T_lost is short (R8). -/
def execSilenceDeadlineExpires (a : Station) (s : State) : Host.Outcome State Fault Refusal :=
  .next (if (s.peer a).presence = .present ∧ expired (s.peer a).silenceDeadline s.now
    then s.changePeer a (PeerEntry.fallSilent s.now s.cfg.lostInterval) else s)

/-- LOST_DEADLINE_EXPIRES: a SILENT entry becomes DEPARTED (R9). -/
def execLostDeadlineExpires (a : Station) (s : State) : Host.Outcome State Fault Refusal :=
  .next (if (s.peer a).presence = .silent ∧ expired (s.peer a).lostDeadline s.now
    then s.changePeer a PeerEntry.beLost else s)

/-- RECEIVE_JOIN (R13). -/
def execReceiveJoin (a : Station) (g : Word16) (d : Byte) (s : State) : Host.Outcome State Fault Refusal :=
  .next (s.receive a (validFrame (.join g d)) (State.peerJoins a g d))

/-- RECEIVE_STATUS (R14). -/
def execReceiveStatus (a : Station) (f : StatusFields) (s : State) : Host.Outcome State Fault Refusal :=
  .next (s.receive a (validFrame (.status f)) (State.peerReports a f))

/-- RECEIVE_ALARM (R15). -/
def execReceiveAlarm (a : Station) (rs : List AlarmRecord) (s : State) : Host.Outcome State Fault Refusal :=
  .next (s.receive a (validFrame (.alarm rs)) (State.peerAlarms a rs))

/-- RECEIVE_ACK (R16, R71). -/
def execReceiveAck (a : Station) (ps : List AckPair) (s : State) : Host.Outcome State Fault Refusal :=
  .next (s.receive a (validFrame (.ack ps)) (State.peerAcks a ps))

/-- RECEIVE_PROPOSE (R16, R27, R28, R29). -/
def execReceivePropose (a : Station) (r : Byte) (c : Channel) (x : HalfDegrees) (s : State) :
    Host.Outcome State Fault Refusal :=
  .next (s.receive a (validFrame (.propose r c x)) (State.viaRound a (State.hearPropose a r c x)))

/-- RECEIVE_VOTE (R16, R32). -/
def execReceiveVote (a : Station) (r : Byte) (v : Verdict) (s : State) : Host.Outcome State Fault Refusal :=
  .next (s.receive a (validFrame (.vote r v)) (State.viaRound a (State.hearVote a r v)))

/-- RECEIVE_WITHDRAW (R16, R39). -/
def execReceiveWithdraw (a : Station) (r : Byte) (s : State) : Host.Outcome State Fault Refusal :=
  .next (s.receive a (validFrame (.withdraw r)) (State.viaRound a (State.hearWithdraw a r)))

/-- RECEIVE_COMMIT (R16, R42). -/
def execReceiveCommit (a : Station) (r : Byte) (cs : StationSet) (s : State) : Host.Outcome State Fault Refusal :=
  .next (s.receive a (validFrame (.commit r cs)) (State.viaRound a (State.hearCommitment r (some cs))))

/-- RECEIVE_LEAVE (R7). -/
def execReceiveLeave (a : Station) (s : State) : Host.Outcome State Fault Refusal :=
  .next (s.receive a (validFrame .leave) (State.peerLeaves a))

end Sys2Proof.Machine
end

