-- ==== Sys2Proof/Machine/Image.lean ====
section
/-! DEFINITION. The start image (10): its layout (R123), its checks (R173, R174), and the passage out of LOADING (R157,
R158). -/
namespace Sys2Proof.Machine

/-! ## Layout (R123) -/

/-- Byte `i` of the image, as an unsigned number. -/
def imageByte (l : List Byte) (i : Nat) : Nat := (l.getD i 0).toNat

/-- The 16-bit two's complement number at byte `i`, most significant byte first (R120, R123). -/
def imageTemp (l : List Byte) (i : Nat) : HalfDegrees := ((l.getD i 0) ++ (l.getD (i + 1) 0) : BitVec 16).toInt

/-- Bit `b` of byte `i`. -/
def imageBit (l : List Byte) (i b : Nat) : Bool := (l.getD i 0).getLsbD b

/-- A weight by its two-bit code (R91, R123). -/
def weightOfCode : Nat → Weight
  | 0 => .none
  | 1 => .quarter
  | 2 => .half
  | _ => .full

/-- The weight for station `a` in the four bytes from byte `i`, four stations a byte, lowest station in the lowest bits. -/
def imageWeight (l : List Byte) (i : Nat) (a : Station) : Weight :=
  weightOfCode (imageByte l (i + a.val / 4) / 4 ^ (a.val % 4) % 4)

/-- One fan's configuration: weights from byte `i`, and the floor after them. -/
def imageFan (l : List Byte) (i : Nat) : FanConfig :=
  { weights := Vector.ofFn fun a => imageWeight l i a, floor := l.getD (i + 4) 0 }

/-- A reporting mode by its two-bit code (R123). -/
def modeOfCode : Nat → ReportMode
  | 0 => .level
  | 1 => .edge
  | 2 => .once
  | _ => .reserved

/-- The channel record that begins at byte `i`. -/
def imageChannel (l : List Byte) (i : Nat) : ChannelConfig :=
  { enabled := imageBit l i 0
    mode := modeOfCode (imageByte l i / 2 % 4)
    corroborating := imageBit l i 3
    criticalEnabled := imageBit l i 4
    persistence := imageByte l (i + 1)
    hysteresis := imageByte l (i + 2)
    highLimit := imageTemp l (i + 3)
    criticalHigh := imageTemp l (i + 5)
    criticalRelease := imageTemp l (i + 7)
    t0 := imageTemp l (i + 9)
    t1 := imageTemp l (i + 11)
    t2 := imageTemp l (i + 13)
    t3 := imageTemp l (i + 15)
    d0 := l.getD (i + 17) 0
    d1 := l.getD (i + 18) 0
    d2 := l.getD (i + 19) 0
    d3 := l.getD (i + 20) 0 }

/-- The configuration the 192 bytes give (R123). -/
def imageOf (l : List Byte) : StartImage :=
  { address := ⟨imageByte l 0 % 16, Nat.mod_lt _ (by decide)⟩
    k := imageByte l 1
    kMin := imageByte l 2
    statCode := imageByte l 3
    silenceMultiple := imageByte l 4
    lostCode := imageByte l 5
    roundSeconds := imageByte l 6
    graceSeconds := imageByte l 7
    sampleSeconds := imageByte l 8
    trust := imageBit l 9 0
    fallStep := imageByte l 10
    stallFloor := imageByte l 11
    fanA := imageFan l 12
    fanB := imageFan l 17
    channels := Vector.ofFn fun c => imageChannel l (22 + 21 * c.val) }

/-! ## The checks (R173, R174) -/

/-- `x` lies in `lo..hi`. -/
def inSpan (lo hi x : Nat) : Bool := decide (lo ≤ x ∧ x ≤ hi)

/-- Check 2: the sum of bytes 0 to 189 modulo 65536 is the image check at bytes 190–191. -/
def checksumGood (l : List Byte) : Bool :=
  ((l.take 190).foldl (fun n b => n + b.toNat) 0) % 65536 == 256 * imageByte l 190 + imageByte l 191

/-- Check 4. -/
def quorumGood (g : StartImage) : Bool := inSpan 1 16 g.k && inSpan 1 16 g.kMin && decide (g.kMin ≤ g.k)

/-- Check 5. -/
def timersGood (g : StartImage) : Bool :=
  inSpan 1 8 g.statCode && inSpan 2 8 g.silenceMultiple && inSpan 1 60 g.lostCode && inSpan 2 30 g.roundSeconds
    && inSpan 0 120 g.graceSeconds && inSpan 1 8 g.sampleSeconds

/-- Check 6 on one channel record (R174). -/
def limitsGood (k : ChannelConfig) : Bool :=
  !k.enabled
    || (k.mode != .reserved && inSpan 1 4 k.persistence && inSpan 0 63 k.hysteresis && legalReading k.highLimit
      && (!k.criticalEnabled
        || (legalReading k.criticalHigh && legalReading k.criticalRelease
          && decide (k.criticalRelease < k.criticalHigh))))

/-- Check 7 on one channel record (R174). -/
def curveGood (k : ChannelConfig) : Bool :=
  !k.enabled
    || (legalReading k.t0 && legalReading k.t1 && legalReading k.t2 && legalReading k.t3
      && decide (k.t0 < k.t1 ∧ k.t1 < k.t2 ∧ k.t2 < k.t3)
      && decide (k.d0.toNat ≤ k.d1.toNat ∧ k.d1.toNat ≤ k.d2.toNat ∧ k.d2.toNat ≤ k.d3.toNat))

/-- Check 8. -/
def fanGood (g : StartImage) : Bool := inSpan 1 32 g.fallStep && inSpan 16 128 g.stallFloor

/-- A test on every channel record. -/
def allChannels (g : StartImage) (p : ChannelConfig → Bool) : Bool := (List.finRange 8).all fun c => p g.channels[c]

/-- The code of the first check that fails, if any (R173). -/
def imageFault (l : List Byte) : Option FaultCode :=
  let g := imageOf l
  if !checksumGood l then some .checksum
  else if !decide (imageByte l 0 < 16) then some .stationAddress
  else if !quorumGood g then some .quorum
  else if !timersGood g then some .timers
  else if !allChannels g limitsGood then some .channelLimits
  else if !allChannels g curveGood then some .curve
  else if !fanGood g then some .fanParameters
  else none

/-! ## Reading and the end of LOADING (R157, R158, R171, R172, R176, R177) -/

/-- The Image Loader begins the read of a byte (R172). -/
def State.beginRead (s : State) : State :=
  { s with loader := { s.loader with byteDeadline := some (s.now + Config.byteInterval) } }

/-- The sample deadlines as LISTENING is entered: armed for the enabled channels (R58). -/
def State.armSamples (s : State) : State :=
  { s with sampleDeadlines := Vector.ofFn fun c =>
      if (s.channelCfg c).enabled then some (s.now + s.cfg.sampleTimeout) else none }

/-- The first fan check windows open (R98). -/
def State.openWindows (s : State) : State :=
  { s with
    fanA := s.fanA.openWindow s.now s.cfg.stallFloor
    fanB := s.fanB.openWindow s.now s.cfg.stallFloor }

/-- The passage from LOADING to LISTENING with a good image: every block takes its configuration and first state (R3, R58,
R76, R86, R98, R105, R125, R157, R176). -/
def State.loadGood (g : StartImage) (s : State) : State :=
  let s₁ := { s with
    image := some g
    loader := { s.loader with byteDeadline := none, bytes := [] }
    life := { s.life with nodeState := .listening, listenDeadline := some (s.now + g.listenInterval) } }
  let s₂ := { s₁.armSamples with localDemand := s₁.localDemandNow, standing := s₁.standingNow }
  (s₂.formOwnEntry.openWindows.deliverEligible false).recomputeTargets

/-- The passage from LOADING to CONFIG_FAULT: the code is recorded and the bytes discarded (R158, R177). -/
def State.loadFault (c : FaultCode) (s : State) : State :=
  { s with
    loader := { s.loader with faultCode := some c, byteDeadline := none, bytes := [] }
    life := { s.life with nodeState := .configFault } }.recomputeTargets

/-- All 192 bytes have been read: the checks, and the end of LOADING (R173). -/
def State.finishLoad (l : List Byte) (s : State) : State :=
  match imageFault l with
  | some c => s.loadFault c
  | none => s.loadGood (imageOf l)

/-- The memory has failed to answer the read of a byte: a new attempt from byte 0, or the end of the load (R172). -/
def State.readFailed (s : State) : State :=
  if s.loader.attempt < Config.maxAttempts then
    { s with loader := { s.loader with attempt := s.loader.attempt + 1, bytes := [] } }.beginRead
  else s.loadFault .memorySilent

end Sys2Proof.Machine
end

