-- ==== Sys2Proof/Machine/Reset.lean ====
section
/-! DEFINITION. The commands of reset and load (09 section 9.3, 10 section 10.1): POWER_ON, RESET_LINE_ASSERTED,
RESET_LINE_RELEASED, IMAGE_BYTE_ARRIVES, MEMORY_READ_REFUSED, BYTE_DEADLINE_EXPIRES. -/
namespace Sys2Proof.Machine

/-- Every block at its reset values, with the latch and the RESET line as given (R156). The clock, the free choices and the
waiting commands go on (log 27). -/
def State.allReset (latch line : Bool) (s : State) : State :=
  { State.reset with
    now := s.now, resetLine := line, shutdownLatch := latch, choices := s.choices, pending := s.pending }

/-- LOADING is entered unless the RESET line holds the blocks: the read of byte 0 begins (R156, R171; log 4). -/
def State.enterLoading (s : State) : State := if s.resetLine then s else s.beginRead

/-- POWER_ON: every block takes its power-on values, the latch is cleared, and LOADING begins (R46, R156). -/
def execPowerOn (s : State) : Host.Outcome State Fault Refusal :=
  .next (s.allReset false s.resetLine).enterLoading

/-- RESET_LINE_ASSERTED: every block is held at its reset values, the latch as it was (R46, R156). -/
def execResetLineAsserted (s : State) : Host.Outcome State Fault Refusal :=
  .next (s.allReset s.shutdownLatch true)

/-- RESET_LINE_RELEASED: the node is in LOADING and the read begins from byte 0 (R156, R171). -/
def execResetLineReleased (s : State) : Host.Outcome State Fault Refusal :=
  .next (if s.resetLine then ({ s with resetLine := false }).enterLoading else s)

/-- A byte of the image has arrived whole: the next read begins, or the checks follow byte 191 (R171, R172, R173). -/
def State.keepByte (b : Byte) (s : State) : State :=
  let l := s.loader.bytes ++ [b]
  let s' := { s with loader := { s.loader with byteDeadline := none, bytes := l } }
  if l.length < Config.imageBytes then s'.beginRead else s'.finishLoad l

/-- A read is in progress exactly while the byte deadline is armed (R172). -/
def State.reading (s : State) : Bool := s.loader.byteDeadline.isSome

/-- IMAGE_BYTE_ARRIVES: the byte is kept, unless no read awaits it or it answers a read that has failed (R172; log 8). -/
def execImageByteArrives (late : Bool) (b : Byte) (s : State) : Host.Outcome State Fault Refusal :=
  .next (if s.reading && !late then s.keepByte b else s)

/-- MEMORY_READ_REFUSED: the memory has failed to answer the read in progress (R172). A refusal taken after the expiry that
failed its read counts against the new read, the model's choice (log 30). -/
def execMemoryReadRefused (s : State) : Host.Outcome State Fault Refusal :=
  .next (if s.reading then s.readFailed else s)

/-- BYTE_DEADLINE_EXPIRES: the memory has failed to answer in time (R172). -/
def execByteDeadlineExpires (s : State) : Host.Outcome State Fault Refusal :=
  .next (if expired s.loader.byteDeadline s.now then s.readFailed else s)

end Sys2Proof.Machine
end

