-- ==== Sys2Proof/Machine/Sensors.lean ====
section
/-! DEFINITION. The commands of the Sample Receiver (03 sections 3.1 and 3.2): SAMPLE_WORD and SAMPLE_DEADLINE_EXPIRES. -/
namespace Sys2Proof.Machine

/-- The sample deadline of channel `c` is armed at the present time plus T_samp (R58, R59). -/
def State.armSample (c : Channel) (s : State) : State :=
  { s with sampleDeadlines := s.sampleDeadlines.set c (some (s.now + s.cfg.sampleTimeout)) }

/-- A word passes the tests of R56: it is taken in this node state, its spare bits are zero, and its channel is enabled. -/
def State.takesWord (w : Word16) (s : State) : Bool :=
  s.running && wordSpareClear w && (s.channelCfg (wordChannel w)).enabled

/-- SAMPLE_WORD: a word that passes restarts its channel's deadline and is handled as a sample (R56, R57, R58, R61). -/
def execSampleWord (w : Word16) (s : State) : Host.Outcome State Fault Refusal :=
  .next (if s.takesWord w then (s.armSample (wordChannel w)).takeSample (wordChannel w) (classify w) else s)

/-- SAMPLE_DEADLINE_EXPIRES: the deadline is re-armed and a fault sample delivered (R59). -/
def execSampleDeadlineExpires (c : Channel) (s : State) : Host.Outcome State Fault Refusal :=
  .next (if expired s.sampleDeadlines[c] s.now then (s.armSample c).takeSample c .fault else s)

end Sys2Proof.Machine
end

