-- ==== Sys2Proof/Machine/Wiring.lean ====
section
/-! DEFINITION. The commands of the Link Controller (07): what the wire does to the receiver and to the frame in flight. -/
namespace Sys2Proof.Machine

/-- MALFORMED_FRAME_DISCARDED: the frame has no effect on any block, and the receiver passes to WAIT at the end of its end
mark (R116, R127). -/
def execMalformedFrameDiscarded (_frame : RawFrame) (s : State) : Host.Outcome State Fault Refusal :=
  .next (if s.link.receiver = .receiving then s.toWait true else s)

/-- RECEPTION_FAILURE: the frame is discarded and the receiver passes to WAIT at once (R116, R127, R137). -/
def execReceptionFailure (_cause : ReceptionCause) (s : State) : Host.Outcome State Fault Refusal :=
  .next (if s.link.receiver = .receiving then s.toWait false else s)

/-- The recessive bit periods this receiver needs to pass from WAIT to IDLE (R127). -/
def State.gapNeeded (s : State) : Nat := if s.link.afterEndMark then Config.idleGap else Config.longGap

/-- IDLE_GAP_ELAPSED: the wire has been quiet long enough, and a receiver in WAIT passes to IDLE (R125, R127; log 9). -/
def execIdleGapElapsed (n : Nat) (s : State) : Host.Outcome State Fault Refusal :=
  .next (if s.running ∧ s.link.receiver = .wait ∧ s.gapNeeded ≤ n
    then { s with link := { s.link with receiver := .idle } } else s)

/-- The node state lets the node transmit (R128). -/
def State.maySend (s : State) : Bool := s.life.nodeState == .joining || s.life.nodeState == .active

/-- The wire carried the start mark the node drove (R132). -/
def startMarkCarried (wire : List Bool) : Bool := wire.head? == some false

/-- The entry at the head leaves the queue and is the frame in flight, a STATUS with its snapshot, read back against the
levels of the wire (R112, R128, R132, R146). The receiver passes to RECEIVING where the wire carries the start mark, and what
it takes from then on is the node's own transmission (R127, R139; logs 10 and 11). -/
def State.beginFrame (wire : List Bool) (f : Pending) (s : State) : State :=
  { s with
    queue := withoutKind s.queue f.kind
    link := { s.link with
      inFlight := some (f.withStatus s.statusSnapshot)
      levels := wire
      receiver := if startMarkCarried wire then .receiving else s.link.receiver
      ownOnWire := startMarkCarried wire } }

/-- BEGIN_TRANSMISSION, when all that R128 asks holds. -/
def execBeginTransmission (wire : List Bool) (s : State) : Host.Outcome State Fault Refusal :=
  .next (if s.link.receiver = .idle ∧ s.link.inFlight = none ∧ s.maySend then
      match headEntry s.queue with
      | some f => s.beginFrame wire f
      | none => s
    else s)

/-- Arbitration is lost on frame `f`: it is returned, and the receiver goes on with the winner's frame, which is not the
node's own transmission (R131, R139). -/
def State.loseArbitration (f : Frame) (s : State) : State :=
  let s' := s.returnFrame f
  { s' with link := { s'.link with ownOnWire := false } }

/-- ARBITRATION_LOST: the levels read back are an arbitration loss of the frame in flight (R130, R131). -/
def execArbitrationLost (s : State) : Host.Outcome State Fault Refusal :=
  .next (match s.link.inFlight with
    | some f => if s.readsBack f [] = .lost then s.loseArbitration f else s
    | none => s)

/-- The fault count rises by 1 (R133), and never above 8 (R135). -/
def State.countFault (s : State) : State :=
  { s with link := { s.link with faults := min (s.link.faults + 1) Config.faultLimit } }

/-- A transmit fault on frame `f`: below the limit the frame is returned, at the limit it is discarded and the limit
delivered; the frame on the wire stays the node's own transmission, so it is not delivered (R133, R139; log 11). -/
def State.faultOn (f : Frame) (s : State) : State :=
  let s' := s.countFault
  if s'.link.faults < Config.faultLimit then s'.returnFrame f
  else ({ s' with link := { s'.link with inFlight := none } }).faultLimit f.kind

/-- TRANSMIT_FAULT: the levels read back are a fault of the frame in flight (R132, R133). -/
def execTransmitFault (wire : List Bool) (s : State) : Host.Outcome State Fault Refusal :=
  .next (match s.link.inFlight with
    | some f => if s.readsBack f wire = .faulted then s.faultOn f else s
    | none => s)

/-- The link once a frame has completed: count 0, nothing in flight, the receiver in WAIT at the end of an end mark (R134). -/
def State.clearFlight (s : State) : State :=
  { s with link := { s.link with faults := 0, inFlight := none } }.toWait true

/-- FRAME_COMPLETES: the frame in flight, which won arbitration and met no fault, has been driven to its end (R134). -/
def execFrameCompletes (s : State) : Host.Outcome State Fault Refusal :=
  .next (match s.link.inFlight with
    | some f => if s.readsTrue f then s.clearFlight.completed f.kind else s
    | none => s)

/-- START_MARK_RECEIVED: a dominant bit takes the receiver from IDLE to RECEIVING (R127). -/
def execStartMarkReceived (s : State) : Host.Outcome State Fault Refusal :=
  .next (if s.link.receiver = .idle
    then { s with link := { s.link with receiver := .receiving, ownOnWire := false } } else s)

/-- FAULTED_FRAME_RECEPTION_ENDS: the frame another station went on driving after the node's fault ends undelivered (R133,
R139). Nothing is in flight after a fault. -/
def execFaultedFrameReceptionEnds (s : State) : Host.Outcome State Fault Refusal :=
  .next (if s.link.receiver = .receiving ∧ s.link.ownOnWire ∧ s.link.inFlight = none
    then s.toWait true else s)

end Sys2Proof.Machine
end

