-- ==== Sys2Proof/Machine/Dispatch.lean ====
section
/-! DEFINITION. The effect of a command on everything but the queue of waiting commands: one arm per command. -/
namespace Sys2Proof.Machine

def exec (i : Instr) (s : State) : Host.Outcome State Fault Refusal :=
  match i with
  | .powerOn => Sys2Proof.Machine.execPowerOn s
  | .resetLineAsserted => Sys2Proof.Machine.execResetLineAsserted s
  | .resetLineReleased => Sys2Proof.Machine.execResetLineReleased s
  | .imageByteArrives late value => Sys2Proof.Machine.execImageByteArrives late value s
  | .memoryReadRefused => Sys2Proof.Machine.execMemoryReadRefused s
  | .byteDeadlineExpires => Sys2Proof.Machine.execByteDeadlineExpires s
  | .sampleWord word => Sys2Proof.Machine.execSampleWord word s
  | .sampleDeadlineExpires channel => Sys2Proof.Machine.execSampleDeadlineExpires channel s
  | .tachEdge fan => Sys2Proof.Machine.execTachEdge fan s
  | .windowDeadlineExpires fan => Sys2Proof.Machine.execWindowDeadlineExpires fan s
  | .fallDeadlineExpires fan => Sys2Proof.Machine.execFallDeadlineExpires fan s
  | .silenceDeadlineExpires station => Sys2Proof.Machine.execSilenceDeadlineExpires station s
  | .lostDeadlineExpires station => Sys2Proof.Machine.execLostDeadlineExpires station s
  | .receiveJoin source signature demand => Sys2Proof.Machine.execReceiveJoin source signature demand s
  | .receiveStatus source fields => Sys2Proof.Machine.execReceiveStatus source fields s
  | .receiveAlarm source records => Sys2Proof.Machine.execReceiveAlarm source records s
  | .receiveAck source pairs => Sys2Proof.Machine.execReceiveAck source pairs s
  | .receivePropose source round channel reading => Sys2Proof.Machine.execReceivePropose source round channel reading s
  | .receiveVote source round verdict => Sys2Proof.Machine.execReceiveVote source round verdict s
  | .receiveWithdraw source round => Sys2Proof.Machine.execReceiveWithdraw source round s
  | .receiveCommit source round concurSet => Sys2Proof.Machine.execReceiveCommit source round concurSet s
  | .receiveLeave source => Sys2Proof.Machine.execReceiveLeave source s
  | .malformedFrameDiscarded frame => Sys2Proof.Machine.execMalformedFrameDiscarded frame s
  | .receptionFailure cause => Sys2Proof.Machine.execReceptionFailure cause s
  | .idleGapElapsed recessive => Sys2Proof.Machine.execIdleGapElapsed recessive s
  | .beginTransmission wire => Sys2Proof.Machine.execBeginTransmission wire s
  | .arbitrationLost => Sys2Proof.Machine.execArbitrationLost s
  | .transmitFault wire => Sys2Proof.Machine.execTransmitFault wire s
  | .frameCompletes => Sys2Proof.Machine.execFrameCompletes s
  | .listenDeadlineExpires => Sys2Proof.Machine.execListenDeadlineExpires s
  | .recoveryDeadlineExpires => Sys2Proof.Machine.execRecoveryDeadlineExpires s
  | .statusDeadlineExpires => Sys2Proof.Machine.execStatusDeadlineExpires s
  | .roundDeadlineExpires => Sys2Proof.Machine.execRoundDeadlineExpires s
  | .graceDeadlineExpires => Sys2Proof.Machine.execGraceDeadlineExpires s
  | .node => Sys2Proof.Machine.execNode s
  | .round => Sys2Proof.Machine.execRound s
  | .peer station => Sys2Proof.Machine.execPeer station s
  | .channel channel => Sys2Proof.Machine.execChannel channel s
  | .fan fan => Sys2Proof.Machine.execFan fan s
  | .ackLocal channels => Sys2Proof.Machine.execAckLocal channels s
  | .ackRemote station channels => Sys2Proof.Machine.execAckRemote station channels s
  | .leave => Sys2Proof.Machine.execLeave s
  | .unknownCommand code => Sys2Proof.Machine.execUnknownCommand code s
  | .startMarkReceived => Sys2Proof.Machine.execStartMarkReceived s
  | .faultedFrameReceptionEnds => Sys2Proof.Machine.execFaultedFrameReceptionEnds s

end Sys2Proof.Machine
end

