-- ==== Sys2Proof/Machine/Clock.lean ====
section
/-! DEFINITION. What the block does while no command waits: a deadline that has fallen due is acted on, and otherwise a
millisecond passes (00 "Times and deadlines"; log 1, log 2). -/
namespace Sys2Proof.Machine

/-- A command that is due, or none. -/
def dueIf (due : Bool) (c : Instr) : List Instr := if due then [c] else []

/-- The expiries that have fallen due (00 "Times and deadlines"). -/
def State.dueCommands (s : State) : List Instr :=
  dueIf (expired s.loader.byteDeadline s.now) .byteDeadlineExpires
    ++ (List.finRange 8).flatMap
      (fun c => dueIf (expired s.sampleDeadlines[c] s.now) (.sampleDeadlineExpires c))
    ++ dueIf (expired s.fanA.windowDeadline s.now) (.windowDeadlineExpires .a)
    ++ dueIf (expired s.fanB.windowDeadline s.now) (.windowDeadlineExpires .b)
    ++ dueIf (expired s.fanA.fallDeadline s.now) (.fallDeadlineExpires .a)
    ++ dueIf (expired s.fanB.fallDeadline s.now) (.fallDeadlineExpires .b)
    ++ (List.finRange 16).flatMap
      (fun a => dueIf (expired (s.peer a).silenceDeadline s.now) (.silenceDeadlineExpires a))
    ++ (List.finRange 16).flatMap
      (fun a => dueIf (expired (s.peer a).lostDeadline s.now) (.lostDeadlineExpires a))
    ++ dueIf (expired s.life.listenDeadline s.now) .listenDeadlineExpires
    ++ dueIf (expired s.life.recoveryDeadline s.now) .recoveryDeadlineExpires
    ++ dueIf (expired s.life.statusDeadline s.now) .statusDeadlineExpires
    ++ dueIf (expired s.round.roundDeadline s.now) .roundDeadlineExpires
    ++ dueIf (expired s.round.graceDeadline s.now) .graceDeadlineExpires

/-- A millisecond passes (log 1). -/
def State.tick (s : State) : State := { s with now := s.now + 1 }

/-- One of several expiries due together, by the next free choice (log 2). -/
def pickDue (n : Nat) (c : Instr) (cs : List Instr) : Instr :=
  (c :: cs).getD (Config.dueOrder n % (cs.length + 1)) c

/-- A step with no command waiting: one due expiry is acted on; the order among several is a free value. With none due a
millisecond passes (log 1, log 2). -/
def State.unattended (s : State) : Host.Outcome State Fault Refusal :=
  match s.dueCommands with
  | [] => .next s.tick
  | [c] => exec c s
  | c :: cs => exec (pickDue s.choices c cs) { s with choices := s.choices + 1 }

end Sys2Proof.Machine
end

