-- ==== Sys2Proof/Safety.lean ====
section
/-! DEFINITION. What stays true of the node from step to step: one predicate for each piece of the spec's standing promises,
and their conjunction `NodeInv`. -/
namespace Sys2Proof.Machine

/-! ## Reset, loading and configuration (09 R156, R158; 10 R171 to R177) -/

/-- Every block but the Image Loader and the Diagnostic Port at its reset values, in the node state of `s`. -/
def State.atRest (s : State) : State :=
  { State.reset with
    now := s.now, resetLine := s.resetLine, loader := s.loader, shutdownLatch := s.shutdownLatch, port := s.port,
    choices := s.choices, pending := s.pending, life := { LifeCycle.reset with nodeState := s.life.nodeState } }

/-- In LOADING and CONFIG_FAULT every block but the loader and the port holds its reset values (R156, R158). -/
def RestsUntilLoaded (s : State) : Prop := s.running = false → s = s.atRest

/-- While the RESET line is asserted, every block is held at its reset values (R156). -/
def HeldByResetLine (s : State) : Prop :=
  s.resetLine = true → s.life.nodeState = .loading ∧ s.loader = Loader.reset ∧ s.port = none

/-- The checks of R173 on a configuration, but for the image check and the byte of the address. -/
def StartImage.good (g : StartImage) : Bool :=
  quorumGood g && timersGood g && allChannels g limitsGood && allChannels g curveGood && fanGood g

/-- From LISTENING onward a configuration that passed the checks is in force (R173, R176). -/
def ConfiguredWhileRunning (s : State) : Prop := s.running = true → ∃ g, s.image = some g ∧ g.good = true

/-- The loader reads only in LOADING, holds a fault code exactly in CONFIG_FAULT, and counts one to three attempts (R171,
R172, R177). -/
def LoaderInStep (s : State) : Prop :=
  (s.loader.byteDeadline.isSome = true → s.life.nodeState = .loading)
    ∧ (s.loader.faultCode.isSome = true ↔ s.life.nodeState = .configFault)
    ∧ 1 ≤ s.loader.attempt ∧ s.loader.attempt ≤ Config.maxAttempts ∧ s.loader.bytes.length < Config.imageBytes

/-! ## The Peer Table (01) -/

/-- P is the count R17 defines. -/
def EligibleCounted (s : State) : Prop := s.eligible = s.eligibleNow

/-- The own entry mirrors the node's own state (R4). -/
def OwnEntryMirrors (s : State) : Prop :=
  s.running = true → s.peer s.own =
    { presence := .present
      signatureState := .isMatch
      signature := some s.cfg.signature
      demand := s.localDemand
      raised := s.channelsWhere (·.condition == .raised)
      unacked := s.channelsWhere (·.reportState == .unacked)
      faulted := s.channelsWhere (·.faulted)
      fanAFailed := s.fanFailed .a
      fanBFailed := s.fanFailed .b
      critical := s.nodeCritical
      shutdownHeld := s.shutdownLatch
      reported := none
      lastHeard := none
      silenceDeadline := none
      lostDeadline := none }

/-- Every other entry's deadlines are those its presence state calls for, at last heard plus the limit (R2). -/
def PeersAge (s : State) : Prop :=
  ∀ a, s.isOwn a = false →
    (s.peer a).silenceDeadline
        = (if (s.peer a).presence = .present then (s.peer a).lastHeard.map (· + s.cfg.silenceLimit) else none)
      ∧ (s.peer a).lostDeadline
        = (if (s.peer a).presence = .silent then (s.peer a).lastHeard.map (· + s.cfg.lostInterval) else none)
      ∧ ((s.peer a).lastHeard = none ↔ (s.peer a).presence = .absent)

/-! ## The Round Controller (02) -/

/-- The round record's deadlines and proposer set are those its state calls for, the own verdict stands in an open round, and
the node's own address is not in the votes map (R22). -/
def RoundInStep (s : State) : Prop :=
  (s.round.roundDeadline.isSome = true ↔ s.round.state = .opened)
    ∧ (s.round.graceDeadline.isSome = true ↔ s.round.state = .committed)
    ∧ (s.round.proposers ≠ 0 ↔ s.round.state = .opened)
    ∧ (s.round.state = .opened → s.round.ownVerdict.isSome = true)
    ∧ (∀ a, s.isOwn a = true → s.round.votes[a] = none)

/-- A HALTED record goes with an asserted latch (R45, R46). -/
def HaltedHoldsLatch (s : State) : Prop := s.round.state = .halted → s.shutdownLatch = true

/-! ## Sensors and verdict (03, 04) -/

/-- One watch record: counts below N and at 0 in the state that does not use them, faulted exactly while the reading is
FAULT, and the reset values on a channel that is not enabled (R60, R62, R64, R65, R67, R78). -/
def WatchInStep (k : ChannelConfig) (w : WatchRecord) : Prop :=
  (k.enabled = false → w = WatchRecord.reset)
    ∧ (k.enabled = true → w.riseCount < k.persistence ∧ w.fallCount < k.persistence ∧ w.criticalCount < k.persistence)
    ∧ (w.condition = .raised → w.riseCount = 0)
    ∧ (w.condition = .normal → w.fallCount = 0)
    ∧ (w.faulted = true ↔ w.reading = .fault)
    ∧ (k.mode = .level → w.reportState = .clear)
    ∧ (k.mode ≠ .once → w.unreportedRise = false)
    ∧ (k.criticalEnabled = false → w.criticalState = .calm ∧ w.criticalCount = 0)

/-- Every watch record is in step with its configuration. -/
def WatchesInStep (s : State) : Prop := s.running = true → ∀ c, WatchInStep (s.channelCfg c) (s.watch c)

/-- The local demand and the standing verdict are what the records give (R76, R86). -/
def SensorsSummed (s : State) : Prop :=
  s.running = true → s.localDemand = s.localDemandNow ∧ s.standing = s.standingNow

/-- A sample deadline is armed exactly for an enabled channel of a running node (R58). -/
def SampleDeadlinesArmed (s : State) : Prop :=
  ∀ c : Channel, s.sampleDeadlines[c].isSome = (s.running && (s.channelCfg c).enabled)

/-! ## The Airflow Controller (05) -/

/-- Each fan's target and recorded reason are what a recomputation would give now (R93, R109). -/
def TargetsCurrent (s : State) : Prop := ∀ f, (s.fan f).target = s.targetNow f ∧ (s.fan f).reason = s.reasonNow f

/-- The duty is never below the target, the fall deadline is armed exactly while the duty is above it, and a qualifying
window has a duty at or above the stall floor (R95, R96, R100). -/
def FanRecord.Follows (stallFloor : Nat) (r : FanRecord) : Prop :=
  r.target.toNat ≤ r.duty.toNat
    ∧ (r.fallDeadline.isSome = true ↔ r.target.toNat < r.duty.toNat)
    ∧ (r.windowQualifies = true → stallFloor ≤ r.duty.toNat)

/-- Each fan's duty follows its target. -/
def DutiesFollow (s : State) : Prop := ∀ f, (s.fan f).Follows s.cfg.stallFloor

/-- The counts stay below the persistence, and at 0 in the fan state that does not use them (R90, R101, R102). -/
def FanRecord.CountsInStep (r : FanRecord) : Prop :=
  r.stallCount < Config.persistence ∧ r.goodCount < Config.persistence
    ∧ (r.condition = .ok → r.goodCount = 0) ∧ (r.condition = .failed → r.stallCount = 0)

/-- Windows follow one another from LISTENING onward, and the counts are in step (R98, R101, R102). -/
def FansSupervised (s : State) : Prop :=
  ∀ f, (s.fan f).windowDeadline.isSome = s.running ∧ (s.fan f).CountsInStep

/-! ## The Transmit Queue and the link (07, 08) -/

/-- At most one entry of each kind is pending, everything pending or in flight is what the node state admits, and a JOINING
node's one JOIN is either pending or in flight, not both (R128, R141, R143, R147). -/
def QueueInStep (s : State) : Prop :=
  (s.queue.map FrameOf.kind).Nodup
    ∧ (∀ f ∈ s.queue, s.life.nodeState.admits f.kind = true)
    ∧ (∀ f ∈ s.link.inFlight, s.life.nodeState.admits f.kind = true)
    ∧ (s.life.nodeState = .joining → s.queue = [] ∨ s.link.inFlight = none)

/-- The fault count never exceeds 8, and is 8 only in LINK_OFF, CONFLICT or QUIET (R135). -/
def FaultsBounded (s : State) : Prop :=
  s.link.faults ≤ Config.faultLimit
    ∧ (s.link.faults = Config.faultLimit →
      s.life.nodeState = .linkOff ∨ s.life.nodeState = .conflict ∨ s.life.nodeState = .quiet)

/-- Only what the receiver is taking can be the node's own transmission (R139). -/
def OwnFrameOnWire (s : State) : Prop := s.link.ownOnWire = true → s.link.receiver = .receiving

/-! ## The Life Cycle Controller (09) -/

/-- Each deadline of the node state is armed exactly in its state (R154). -/
def LifeDeadlinesInStep (s : State) : Prop :=
  (s.life.listenDeadline.isSome = true ↔ s.life.nodeState = .listening)
    ∧ (s.life.recoveryDeadline.isSome = true ↔ s.life.nodeState = .linkOff)
    ∧ (s.life.statusDeadline.isSome = true ↔ s.life.nodeState = .active)

/-- The leave-pending flag is set exactly while a LEAVE is pending or in flight (R154). -/
def LeaveFlagTrue (s : State) : Prop :=
  s.life.leavePending = true ↔ pendingKind s.queue .leave = true ∨ s.link.inFlight = some .leave

/-! ## What the round rules leave (02)

Each function takes the state a rule finds and gives the record, the queue, the latch and the leave-pending flag it leaves. -/

/-- Of two states, the round record, the queue, the latch and the leave-pending flag are the same. -/
def State.RoundAs (t u : State) : Prop :=
  t.round = u.round ∧ t.queue = u.queue ∧ t.shutdownLatch = u.shutdownLatch ∧ t.life.leavePending = u.life.leavePending

/-- The state in which the Round Controller takes a frame of station `a` that leads from `s` to `t`: the entry has changed,
and a change of P or of the entry's signature state has been followed by the commit test (R18, R23, R36). -/
def State.afterEntry (s t : State) (a : Station) : State :=
  let u := { t with round := s.round, queue := s.queue, shutdownLatch := s.shutdownLatch, life := s.life }
  if t.eligible = s.eligible ∧ (t.peer a).signatureState = (s.peer a).signatureState then u else u.commitTest

/-- A round opens with this record, and a LEAVE still pending is taken back (R24, R167). -/
def State.opening (s : State) (r : RoundRecord) : State :=
  { s with
    round := r
    queue := if s.life.leavePending then withoutKind s.queue .leave else s.queue
    life := { s.life with
      leavePending := s.life.leavePending && (!pendingKind s.queue .leave || s.link.inFlight == some .leave) } }

/-- The record of a round opened from a frame of station `a`, whose verdict is `v` where the frame gives one (R27, R30,
R31). -/
def State.heardRecord (s : State) (r : Byte) (proposers : StationSet) (a : Station) (v : Option Verdict)
    (reason : Option Reason) : RoundRecord :=
  { state := .opened
    number := r
    lastClosed := s.round.lastClosed
    proposers := proposers
    reason := reason
    votes := (Vector.replicate 16 none).set a v
    ownVerdict := some s.standing
    roundDeadline := some (s.now + s.cfg.roundSeconds * 1000)
    graceDeadline := s.round.graceDeadline
    concurSet := none }

/-- A frame of this kind is queued in place of a pending one, in an ACTIVE node alone (R48). -/
def State.queuing (s : State) (f : Pending) : State :=
  if s.isActive then { s with queue := withoutKind s.queue f.kind ++ [f] } else s

/-- The node adds itself to the proposers of the open round (R25; log 16). -/
def State.coProposing (s : State) : State :=
  { s with
    round := { s.round with proposers := insertMember s.round.proposers s.own, ownVerdict := some .concur }
    queue := s.queue.filter fun f => f != FrameOf.withdraw s.round.number
  }.queuing (.propose s.round.number s.reasonChannel s.reasonReading)

/-- The node answers a round just opened: a PROPOSE where it is ACTIVE, critical and no proposer, else its VOTE (R31). -/
def State.answering (s : State) : State :=
  if s.isActive = true ∧ s.nodeCritical = true ∧ member s.round.proposers s.own = false then s.coProposing
  else s.queuing (.vote s.round.number (s.round.ownVerdict.getD .refuse))

/-- A PROPOSE opens the round it names (R27, R31, R36). -/
def State.proposedBy (s : State) (a : Station) (r : Byte) (c : Channel) (x : HalfDegrees) : State :=
  (s.opening (s.heardRecord r (single a) a (some .concur)
    (some { station := a, channel := c, reading := x }))).answering.commitTest

/-- A STATUS showing OPEN opens the round it names, unless its proposer set would be empty (R30, R31, R36). -/
def State.shownOpenBy (s : State) (a : Station) (f : StatusFields) : State :=
  if removeMember f.proposers s.own = 0 ∧ (s.isActive = false ∨ s.nodeCritical = false) then s
  else (s.opening (s.heardRecord f.roundNumber (removeMember f.proposers s.own) a f.verdict none)).answering.commitTest

/-- The node opens the round after the last closed (R24, R26, R36). -/
def State.proposing (s : State) : State :=
  ((s.opening
    { state := .opened
      number := s.round.lastClosed + 1
      lastClosed := s.round.lastClosed
      proposers := single s.own
      reason := some { station := s.own, channel := s.reasonChannel, reading := s.reasonReading }
      votes := Vector.replicate 16 none
      ownVerdict := some .concur
      roundDeadline := some (s.now + s.cfg.roundSeconds * 1000)
      graceDeadline := s.round.graceDeadline
      concurSet := none }).queuing
    (.propose (s.round.lastClosed + 1) s.reasonChannel s.reasonReading)).commitTest

/-- The open round is abandoned (R40; the record keeps its number, log 23). -/
def State.abandoning (s : State) : State :=
  { s with
    round :=
      { state := .idle
        number := s.round.number
        lastClosed := s.round.number
        proposers := 0
        reason := none
        votes := Vector.replicate 16 none
        ownVerdict := none
        roundDeadline := none
        graceDeadline := s.round.graceDeadline
        concurSet := none }
    queue := s.queue.filter fun f => !(f.kind == .propose || f.kind == .vote) }

/-- A verdict of station `a` is recorded, a CONCUR being kept (R32, R36). -/
def State.recording (s : State) (a : Station) (v : Verdict) : State :=
  { s with round := { s.round with
      votes := if s.round.votes[a] = some Verdict.concur then s.round.votes else s.round.votes.set a (some v) } }.commitTest

/-- A commitment for round `r` is adopted (R42, R43; a grace interval of 0 halts at once, R45 and log 7). -/
def State.adopting (s : State) (r : Byte) (set : Option StationSet) : State :=
  { s with
    round :=
      { state := if s.cfg.graceSeconds = 0 then .halted else .committed
        number := r
        lastClosed := s.round.lastClosed
        proposers := 0
        reason := if s.round.state = .opened ∧ s.round.number = r then s.round.reason else none
        votes := if s.round.state = .opened ∧ s.round.number = r then s.round.votes else Vector.replicate 16 none
        ownVerdict := if s.round.state = .opened ∧ s.round.number = r then s.round.ownVerdict else none
        roundDeadline := none
        graceDeadline := if s.cfg.graceSeconds = 0 then none else some (s.now + s.cfg.graceSeconds * 1000)
        concurSet := set }
    shutdownLatch := s.shutdownLatch || decide (s.cfg.graceSeconds = 0)
    queue := s.queue.filter fun f => !(f.kind == .propose || f.kind == .vote || f.kind == .withdraw) }

/-- Node critical begins (R24, R25, R36). -/
def State.criticalBegins (s : State) : State :=
  if s.isActive = true ∧ s.round.state = .idle then s.proposing
  else if s.isActive = true ∧ s.round.state = .opened ∧ member s.round.proposers s.own = false then
    if s.round.ownVerdict = some .concur then s.coProposing else s.coProposing.commitTest
  else s

/-- Node critical ends: a node that is a proposer of the open round withdraws, and the round is abandoned where no other
proposer is left (R38, R40). -/
def State.criticalEnds (s : State) : State :=
  if s.round.state = .opened ∧ member s.round.proposers s.own = true then
    let u := { s with queue := withoutKind s.queue .propose }.queuing (.withdraw s.round.number)
    if removeMember s.round.proposers s.own = 0 then u.abandoning
    else { u with round := { u.round with proposers := removeMember s.round.proposers s.own } }
  else s

/-- The standing verdict, which was `before`, turns: in an open round the own verdict follows it from REFUSE to CONCUR alone
(R34, R36). -/
def State.verdictTurns (s : State) (before : Verdict) : State :=
  if before = .refuse ∧ s.standing = Verdict.concur ∧ s.round.state = .opened ∧ s.round.ownVerdict = some .refuse then
    ({ s with round := { s.round with ownVerdict := some .concur } }.queuing (.vote s.round.number .concur)).commitTest
  else s

/-- P takes a value, and a change of it is followed by the commit test (R18, R36). -/
def State.counting (s : State) (p : Nat) : State := if p = s.eligible then s else { s with eligible := p }.commitTest

/-- The entry into ACTIVE: the node proposes in an IDLE record where it is critical, and answers an OPEN one, the commit test
following; a decided record is left alone (R24, R25, R36, R53). -/
def State.entering (s : State) : State :=
  if s.round.state = .idle ∧ s.nodeCritical = true then s.proposing
  else if s.round.state = .opened then s.answering.commitTest
  else s

/-! ## ALARM records queued (R66) -/

/-- ALARM records are queued one after another, in an ACTIVE node alone. -/
def State.reporting (s : State) (rs : List AlarmRecord) : State :=
  if s.isActive then { s with queue := rs.foldl (fun q r => enqueue q (.alarm [r])) s.queue } else s

/-- The records that an acknowledgement of the channels `x` reports, in ascending channel order (R72, R73). -/
def State.ackRecords (s : State) (x : Channel → Bool) : List AlarmRecord :=
  (List.finRange 8).flatMap fun c =>
    if x c = true ∧ (s.channelCfg c).enabled = true ∧ (s.watch c).reportState = .unacked then
      match ackEvent (s.channelCfg c).mode (s.watch c) with
      | some e =>
        [alarmRecord c (s.channelCfg c) e ((s.watch c).acknowledge (s.channelCfg c).mode)]
      | none => []
    else []

/-- The round, queue, latch and flag once a sample for channel `c` that leads from `s` to `t` has been handled: its reports,
the beginning or end of node critical, and the turn of the verdict, in this order (R61, R83, R87; log 17). -/
def State.afterSample (s t : State) (c : Channel) (p : Sample) : State :=
  let u := { t with round := s.round, queue := s.queue, shutdownLatch := s.shutdownLatch, life := s.life
    }.reporting (sampleRecords c (s.channelCfg c) p (s.watch c))
  let v :=
    if s.nodeCritical = false ∧ t.nodeCritical = true then u.criticalBegins
    else if s.nodeCritical = true ∧ t.nodeCritical = false then u.criticalEnds
    else u
  v.verdictTurns s.standing

/-! ## Frames -/

/-- Of each fan only what a recomputation of targets gives can change: not its window, its counts or its state. -/
def State.SameSupervision (s t : State) : Prop :=
  ∀ f, t.fan f =
    { s.fan f with
      target := (t.fan f).target
      duty := (t.fan f).duty
      fallDeadline := (t.fan f).fallDeadline
      windowQualifies := (t.fan f).windowQualifies
      reason := (t.fan f).reason }

/-- Of the peer entries only that of station `a` and, in its shutdown held flag, the own entry can change. -/
def State.SamePeersBut (s t : State) (a : Station) : Prop :=
  ∀ b, b ≠ a → t.peer b = if b = s.own then { s.peer b with shutdownHeld := (t.peer b).shutdownHeld } else s.peer b

/-- What a sample for channel `c` may change, and what it leaves (R61, R66, R76, R83, R86). -/
def State.SampleEffect (s t : State) (c : Channel) (p : Sample) : Prop :=
  t = { s with
      sampleDeadlines := s.sampleDeadlines.set c (some (s.now + s.cfg.sampleSeconds * 1000))
      channels := t.channels
      localDemand := t.localDemand
      standing := t.standing
      peers := t.peers
      round := t.round
      shutdownLatch := t.shutdownLatch
      fanA := t.fanA
      fanB := t.fanB
      queue := t.queue
      life := { s.life with leavePending := t.life.leavePending } }
    ∧ t.watch c = ((s.watch c).takeSample (s.channelCfg c) p).criticalStep (s.channelCfg c) p
    ∧ (∀ d, d ≠ c → t.watch d = s.watch d)
    ∧ t.localDemand = t.localDemandNow ∧ t.standing = t.standingNow
    ∧ (∀ a, a ≠ s.own → t.peer a = s.peer a)
    ∧ s.SameSupervision t
    ∧ t.RoundAs (s.afterSample t c p)

/-- What an ageing entry of station `a` may change, and what it leaves (R8, R9, R18, R20). -/
def State.AgeingEffect (s t : State) (a : Station) : Prop :=
  t = { s with
      peers := t.peers
      eligible := t.eligible
      round := t.round
      shutdownLatch := t.shutdownLatch
      fanA := t.fanA
      fanB := t.fanB
      queue := t.queue }
    ∧ s.SamePeersBut t a ∧ t.eligible = t.eligibleNow ∧ s.SameSupervision t

/-- What a valid frame from station `a` other than an ACK may change, and what it leaves; the receiver is in WAIT (R6, R7,
R13 to R20, R117, R127). -/
def State.HearingEffect (s t : State) (a : Station) : Prop :=
  t = { s with
      peers := t.peers
      eligible := t.eligible
      round := t.round
      shutdownLatch := t.shutdownLatch
      fanA := t.fanA
      fanB := t.fanB
      queue := t.queue
      life := { s.life with leavePending := t.life.leavePending }
      link := { s.link with receiver := .wait, afterEndMark := true, ownOnWire := false } }
    ∧ s.SamePeersBut t a ∧ t.eligible = t.eligibleNow ∧ s.SameSupervision t

/-! ## When a command acts -/

/-- The time of a deadline has come. -/
def Due (d : Deadline) (now : Millis) : Prop := ∃ t, d = some t ∧ t ≤ now

/-- A valid frame from station `a` that ends now is delivered to the blocks (R117, R138, R139). -/
def State.Hears (s : State) (a : Station) : Prop :=
  s.link.receiver = .receiving ∧ s.link.ownOnWire = false ∧ s.running = true ∧ a ≠ s.own

/-- The refresh of station `a`'s entry leads to no commitment: the node is not ACTIVE, or the entry is PRESENT already and P
is as it was (R6, R17, R18, R36). -/
def State.RefreshIsQuiet (s : State) (a : Station) : Prop :=
  s.isActive = false ∨ (EligibleCounted s ∧ (s.peer a).presence = .present)

/-- The port answers: the RESET line does not hold it (R156). -/
def State.Answers (s : State) : Prop := s.resetLine = false

/-! ## Together -/

/-- Everything above. -/
structure NodeInv (s : State) : Prop where
  rests : RestsUntilLoaded s
  held : HeldByResetLine s
  configured : ConfiguredWhileRunning s
  loader : LoaderInStep s
  eligible : EligibleCounted s
  own : OwnEntryMirrors s
  ageing : PeersAge s
  round : RoundInStep s
  latch : HaltedHoldsLatch s
  watches : WatchesInStep s
  summed : SensorsSummed s
  samples : SampleDeadlinesArmed s
  targets : TargetsCurrent s
  duties : DutiesFollow s
  supervised : FansSupervised s
  queue : QueueInStep s
  faults : FaultsBounded s
  own_frame : OwnFrameOnWire s
  life : LifeDeadlinesInStep s
  leave : LeaveFlagTrue s

end Sys2Proof.Machine
end

