-- ==== Sys2Proof/WellFormed.lean ====
section
/-! DEFINITION. Which commands are well formed: those whose operands are what the rule that names the command says they are.
The operand types rule out the rest. -/
namespace Sys2Proof

/-- The contents a RECEIVE_ command carries. -/
def Instr.carriedFrame : Instr → Option Frame
  | .receiveJoin _ g d => some (.join g d)
  | .receiveStatus _ f => some (.status f)
  | .receiveAlarm _ rs => some (.alarm rs)
  | .receiveAck _ ps => some (.ack ps)
  | .receivePropose _ r c x => some (.propose r c x)
  | .receiveVote _ r v => some (.vote r v)
  | .receiveWithdraw _ r => some (.withdraw r)
  | .receiveCommit _ r cs => some (.commit r cs)
  | .receiveLeave _ => some .leave
  | _ => none

/-- A malformed frame is one the envelope can carry and a validity test fails (R115, R119). -/
def RawFrame.isMalformed (w : RawFrame) : Bool :=
  decide (w.payload.length ≤ 63) && (Machine.decodeRaw w).isNone

/-- Well-formed commands: a RECEIVE_ command carries a valid frame (R115), a discarded frame is malformed (R116), and an
unknown command's code is not one of 1..8 (R179). -/
def Instr.wellFormed (i : Instr) : Bool :=
  match i.carriedFrame with
  | some f => Machine.validFrame f
  | none =>
    match i with
    | .malformedFrameDiscarded w => w.isMalformed
    | .unknownCommand b => Machine.isUnknownCode b
    | _ => true

end Sys2Proof
end

