-- ==== Sys2Proof/Certificates/Slice0/Obligations.lean ====
section
/-! DEFINITION. The statements for the provers, from the numbered rules of the spec, file by file. -/

open Sys2Proof Sys2Proof.Machine

/-! ## The block's step (log 1, log 2, log 26) -/

/-- A step takes the command at the front of the queue and runs it on the queue's rest. That the commands wait in one
queue is the model's form (log 26). -/
def Obligations.StepRunsTheFrontCommand : Prop :=
  ∀ (c : Instr) (rest : List Instr) (s : State), s.pending = c :: rest → step s = exec c { s with pending := rest }

/-- With no command waiting, a step acts on one due expiry; with none due, a millisecond passes (logs 1 and 2: the model's
choice). -/
def Obligations.IdleStepActsOnADueExpiry : Prop :=
  ∀ s : State, s.pending = [] →
    (s.dueCommands = [] → step s = .next { s with now := s.now + 1 })
      ∧ (∀ c, s.dueCommands = [c] → step s = exec c s)
      ∧ (2 ≤ s.dueCommands.length → ∃ c ∈ s.dueCommands, step s = exec c { s with choices := s.choices + 1 })

/-- The expiries that are due are those whose deadlines are armed for a time that has come: a disarmed deadline never
expires (00 "Times and deadlines"). -/
def Obligations.DueExpiriesAreTheExpiredDeadlines : Prop :=
  ∀ (s : State) (c : Instr), c ∈ s.dueCommands ↔
    (c = .byteDeadlineExpires ∧ Due s.loader.byteDeadline s.now)
      ∨ (∃ n : Channel, c = .sampleDeadlineExpires n ∧ Due s.sampleDeadlines[n] s.now)
      ∨ (∃ f, c = .windowDeadlineExpires f ∧ Due (s.fan f).windowDeadline s.now)
      ∨ (∃ f, c = .fallDeadlineExpires f ∧ Due (s.fan f).fallDeadline s.now)
      ∨ (∃ a, c = .silenceDeadlineExpires a ∧ Due (s.peer a).silenceDeadline s.now)
      ∨ (∃ a, c = .lostDeadlineExpires a ∧ Due (s.peer a).lostDeadline s.now)
      ∨ (c = .listenDeadlineExpires ∧ Due s.life.listenDeadline s.now)
      ∨ (c = .recoveryDeadlineExpires ∧ Due s.life.recoveryDeadline s.now)
      ∨ (c = .statusDeadlineExpires ∧ Due s.life.statusDeadline s.now)
      ∨ (c = .roundDeadlineExpires ∧ Due s.round.roundDeadline s.now)
      ∨ (c = .graceDeadlineExpires ∧ Due s.round.graceDeadline s.now)

/-- No command touches the clock or the queue of waiting commands, and a free choice is only ever counted upward. The
clock, the queue and the count of choices are the model's (logs 1, 19, 26 and 27). -/
def Obligations.CommandsLeaveClockAndQueue : Prop :=
  ∀ (c : Instr) (s t : State), exec c s = .next t →
    t.now = s.now ∧ t.pending = s.pending ∧ s.choices ≤ t.choices

/-! ## Reset and load (09 R156, R157, R158; 10 R171 to R177) -/

/-- What reset leaves in every block. That the loader has not yet begun its first read and that absent configuration is
`none` are the model's (logs 4 and 5). -/
def Obligations.ResetLeavesTheSpecifiedValues : Prop :=
  (∀ a, State.reset.peer a =
      { presence := .absent, signatureState := .unknown, signature := none, demand := 0, raised := 0, unacked := 0,
        faulted := 0, fanAFailed := false, fanBFailed := false, critical := false, shutdownHeld := false,
        reported := none, lastHeard := none, silenceDeadline := none, lostDeadline := none })
    ∧ (∀ c, State.reset.watch c =
      { reading := .absent, condition := .normal, riseCount := 0, fallCount := 0, reportState := .clear,
        lastReported := .normal, unreportedRise := false, faulted := false, criticalState := .calm,
        criticalCount := 0 })
    ∧ (∀ f, State.reset.fan f =
      { target := 255, duty := 255, fallDeadline := none, windowDeadline := none, edgeSeen := false,
        windowQualifies := false, stallCount := 0, goodCount := 0, condition := .ok, reason := .forced .nodeState })
    ∧ (∀ c : Channel, State.reset.sampleDeadlines[c] = none)
    ∧ State.reset.life.nodeState = .loading ∧ State.reset.life.listenDeadline = none
    ∧ State.reset.life.recoveryDeadline = none ∧ State.reset.life.statusDeadline = none
    ∧ State.reset.life.leavePending = false
    ∧ State.reset.round.state = .idle ∧ State.reset.round.number = 0 ∧ State.reset.round.lastClosed = 0
    ∧ State.reset.round.proposers = 0 ∧ State.reset.round.reason = none
    ∧ (∀ a : Station, State.reset.round.votes[a] = none) ∧ State.reset.round.ownVerdict = none
    ∧ State.reset.round.roundDeadline = none ∧ State.reset.round.graceDeadline = none
    ∧ State.reset.round.concurSet = none ∧ State.reset.shutdownLatch = false
    ∧ State.reset.localDemand = 255 ∧ State.reset.standing = .refuse ∧ State.reset.eligible = 0
    ∧ State.reset.queue = [] ∧ State.reset.link.receiver = .wait ∧ State.reset.link.inFlight = none
    ∧ State.reset.link.faults = 0 ∧ State.reset.loader.faultCode = none ∧ State.reset.loader.attempt = 1
    ∧ State.reset.loader.byteDeadline = none ∧ State.reset.port = none ∧ State.reset.image = none

/-- POWER_ON puts every block at its reset values, the shutdown latch clear, and begins the read of the image; the RESET
line holds every block at its reset values but for the latch, and its release begins the read from byte 0 (R46, R156,
R171). That the clock, the free choices and the waiting commands go on is the model's choice (log 27), and so is a
power-on under a held line (log 4). -/
def Obligations.ResetsPutEveryBlockAtItsResetValues : Prop :=
  (∀ s : State, exec .powerOn s = .next
    { State.reset with
      now := s.now
      resetLine := s.resetLine
      choices := s.choices
      pending := s.pending
      loader := { Loader.reset with byteDeadline := if s.resetLine then none else some (s.now + 10) } })
    ∧ (∀ s : State,
      exec .resetLineAsserted s = .next
          { State.reset with
            now := s.now
            resetLine := true
            shutdownLatch := s.shutdownLatch
            choices := s.choices
            pending := s.pending }
        ∧ (s.resetLine = true → exec .resetLineReleased s = .next
          { s with resetLine := false, loader := { s.loader with byteDeadline := some (s.now + 10) } })
        ∧ (s.resetLine = false → exec .resetLineReleased s = .next s))

/-- A byte that answers the read in progress is kept, and the read of the next begins with a fresh byte deadline; any
other byte is discarded. A memory that refuses a read or does not answer it in 10 ms costs an attempt, and the third ends
the load in CONFIG_FAULT with code 1, the fans forced by the node state (R109, R158, R171, R172, R177). Which byte answers the
read in progress is told by the command's operand (log 8), a byte with no read awaiting it has no effect (log 3), and a refusal
is always of the read in progress, one taken after an expiry too (log 30): the model's choices. -/
def Obligations.ImageReadsAreKeptOrRetried : Prop :=
  (∀ (s : State) (late : Bool) (b : Byte),
    (s.loader.byteDeadline.isSome = true → late = false → s.loader.bytes.length + 1 < 192 →
        exec (.imageByteArrives late b) s = .next
          { s with loader :=
            { s.loader with bytes := s.loader.bytes ++ [b], byteDeadline := some (s.now + 10) } })
      ∧ (s.loader.byteDeadline = none ∨ late = true → exec (.imageByteArrives late b) s = .next s))
    ∧ (∀ (s : State) (c : Instr),
      (c = .memoryReadRefused ∧ s.loader.byteDeadline.isSome = true)
          ∨ (c = .byteDeadlineExpires ∧ Due s.loader.byteDeadline s.now) →
        (s.loader.attempt < 3 → exec c s = .next
            { s with loader :=
              { s.loader with attempt := s.loader.attempt + 1, bytes := [], byteDeadline := some (s.now + 10) } })
          ∧ (3 ≤ s.loader.attempt → ∃ t, exec c s = .next t
            ∧ t = { s with
                loader := { s.loader with faultCode := some .memorySilent, bytes := [], byteDeadline := none }
                life := { s.life with nodeState := .configFault }
                fanA := t.fanA
                fanB := t.fanB }
            ∧ s.SameSupervision t
            ∧ ∀ f, (t.fan f).target = 255 ∧ (t.fan f).reason = .forced .nodeState))

/-- The last byte ends the load: the checks on the 192 bytes decide between CONFIG_FAULT with the code of the first that
fails and LISTENING with the configuration, the own entry, the deadlines and the fan check windows that go with it (R3,
R58, R76, R86, R98, R105, R157, R158, R173, R176, R177). -/
def Obligations.LastByteEndsTheLoad : Prop :=
  ∀ (s : State) (b : Byte), s.loader.byteDeadline.isSome = true → s.loader.bytes.length + 1 = 192 →
    ∃ t, exec (.imageByteArrives false b) s = .next t
      ∧ (∀ c, imageFault (s.loader.bytes ++ [b]) = some c →
        t = { s with
            loader := { s.loader with faultCode := some c, bytes := [], byteDeadline := none }
            life := { s.life with nodeState := .configFault }
            fanA := t.fanA
            fanB := t.fanB }
          ∧ s.SameSupervision t)
      ∧ (imageFault (s.loader.bytes ++ [b]) = none →
        t = { s with
            loader := { s.loader with bytes := [], byteDeadline := none }
            image := some (imageOf (s.loader.bytes ++ [b]))
            life := { s.life with nodeState := .listening, listenDeadline := some (s.now + t.cfg.listenInterval) }
            sampleDeadlines := t.sampleDeadlines
            localDemand := t.localDemand
            standing := t.standing
            peers := t.peers
            eligible := t.eligible
            fanA := t.fanA
            fanB := t.fanB }
          ∧ t.cfg.listenInterval = 2 * (t.cfg.silenceMultiple * (t.cfg.statCode * 250))
          ∧ (∀ c : Channel, t.sampleDeadlines[c]
              = if (t.channelCfg c).enabled then some (s.now + t.cfg.sampleSeconds * 1000) else none)
          ∧ t.localDemand = t.localDemandNow ∧ t.standing = t.standingNow ∧ t.eligible = t.eligibleNow
          ∧ (∀ a, a ≠ t.own → t.peer a = s.peer a)
          ∧ (t.peer t.own).presence = .present ∧ (t.peer t.own).signatureState = .isMatch
          ∧ (t.peer t.own).signature = some t.cfg.signature ∧ (t.peer t.own).demand = t.localDemand
          ∧ (t.peer t.own).shutdownHeld = s.shutdownLatch
          ∧ (∀ f, (t.fan f).windowDeadline = some (s.now + 1000) ∧ (t.fan f).edgeSeen = false
            ∧ (t.fan f).condition = (s.fan f).condition ∧ (t.fan f).stallCount = (s.fan f).stallCount
            ∧ (t.fan f).goodCount = (s.fan f).goodCount))

/-- The image is tested by the eight checks in their order, and the code is that of the first that fails (R173); an image
that passes gives a configuration in range. -/
def Obligations.FirstFailingCheckGivesTheCode : Prop :=
  ∀ l : List Byte,
    imageFault l = (([(checksumGood l, FaultCode.checksum), (decide (imageByte l 0 < 16), .stationAddress),
        (quorumGood (imageOf l), .quorum), (timersGood (imageOf l), .timers),
        (allChannels (imageOf l) limitsGood, .channelLimits), (allChannels (imageOf l) curveGood, .curve),
        (fanGood (imageOf l), .fanParameters)]).find? (fun x => !x.1)).map (·.2)
      ∧ (imageFault l = none → (imageOf l).good = true
        ∧ 1 ≤ (imageOf l).kMin ∧ (imageOf l).kMin ≤ (imageOf l).k ∧ (imageOf l).k ≤ 16)

/-! ## Sensors and verdict (03, 04) -/

/-- A sample word from LISTENING onward whose spare bits are zero and whose channel is enabled is handled as a sample for
its channel, a fault sample where its fault bit is set or its reading is out of range; any other word is discarded. What it
reports is queued as ALARM records in an ACTIVE node, and the beginning or end of node critical and the turn of the verdict
reach the round (`State.SampleEffect`); an ALARM record shows its event, its needs-ack flag and its reading, and the reason of
a proposal is the lowest CRITICAL channel (R24, R25, R26, R34, R36, R38, R40, R48, R56, R57, R58, R61, R66, R83, R87, R122). The
order within a sample, a co-proposal, a grace interval of 0 and the number of an abandoned record are as in logs 7, 16, 17 and
23. -/
def Obligations.SampleWordsAreTakenOrDiscarded : Prop :=
  (∀ (s : State) (w : Word16),
    (s.running = true → w.extractLsb' 0 2 = 0 → (s.channelCfg (wordChannel w)).enabled = true →
        ∃ t, exec (.sampleWord w) s = .next t
          ∧ (w.getLsbD 12 = true ∨ wordReading w < -128 ∨ 383 < wordReading w →
            s.SampleEffect t (wordChannel w) .fault)
          ∧ (w.getLsbD 12 = false → -128 ≤ wordReading w → wordReading w ≤ 383 →
            s.SampleEffect t (wordChannel w) (.valid (wordReading w))))
      ∧ (s.running = false ∨ w.extractLsb' 0 2 ≠ 0 ∨ (s.channelCfg (wordChannel w)).enabled = false →
        exec (.sampleWord w) s = .next s))
    ∧ (∀ (c : Channel) (k : ChannelConfig) (e : AlarmEvent) (w : WatchRecord),
      (alarmRecord c k e w).channel = c ∧ (alarmRecord c k e w).event = e
        ∧ ((alarmRecord c k e w).needsAck = true ↔ w.reportState = .unacked)
        ∧ (e = .fault → (alarmRecord c k e w).reading = 0)
        ∧ (∀ x, e ≠ .fault → w.reading = .value x → (alarmRecord c k e w).reading = x)
        ∧ (e ≠ .fault → w.reading = .fault → (alarmRecord c k e w).reading = k.highLimit))
    ∧ (∀ (c : Channel) (k : ChannelConfig) (p : Sample) (w : WatchRecord),
      (sensorEvent p w = none → conditionEvent k p (w.sense p) = none → sampleRecords c k p w = [])
        ∧ (∀ e, sensorEvent p w = some e → conditionEvent k p (w.sense p) = none →
          sampleRecords c k p w = [alarmRecord c k e (w.sense p)])
        ∧ (∀ e, conditionEvent k p (w.sense p) = some e → reports k.mode e ((w.sense p).conditionStep k p) = false →
          sampleRecords c k p w = (sensorEvent p w).toList.map fun d => alarmRecord c k d (w.sense p))
        ∧ (∀ e, conditionEvent k p (w.sense p) = some e → reports k.mode e ((w.sense p).conditionStep k p) = true →
          sampleRecords c k p w = ((sensorEvent p w).toList.map fun d => alarmRecord c k d (w.sense p))
            ++ [alarmRecord c k e (w.takeSample k p)]))
    ∧ (∀ s : State, s.nodeCritical = true →
      (s.watch s.reasonChannel).criticalState = .critical
        ∧ (∀ d, d < s.reasonChannel → (s.watch d).criticalState = .calm)
        ∧ (∀ x, (s.watch s.reasonChannel).reading = .value x → s.reasonReading = x)
        ∧ ((s.watch s.reasonChannel).reading = .fault → s.reasonReading = (s.channelCfg s.reasonChannel).criticalHigh))

/-- The expiry of a channel's sample deadline delivers a fault sample, handled and reported like one from the bus, and arms the
deadline again (R24, R25, R34, R36, R38, R40, R59, R61, R66, R83, R87). The order within a sample, a co-proposal, a grace
interval of 0 and the number of an abandoned record are as in logs 7, 16, 17 and 23. -/
def Obligations.ExpiredSampleDeadlineIsAFaultSample : Prop :=
  ∀ (s : State) (c : Channel), Due s.sampleDeadlines[c] s.now →
    ∃ t, exec (.sampleDeadlineExpires c) s = .next t ∧ s.SampleEffect t c .fault

/-- The sensor event test: FAULT and RESTORE come exactly at the ends of a faulted stretch, in every mode and ahead of any
condition event, and touch nothing of the report state (R62). -/
def Obligations.SensorEventsFollowTheFaultedFlag : Prop :=
  ∀ (k : ChannelConfig) (w : WatchRecord) (p : Sample) (c : Channel),
    (p = .fault → w.faulted = false → sensorEvent p w = some .fault ∧ (w.sense p).faulted = true)
      ∧ (p ≠ .fault → w.faulted = true → sensorEvent p w = some .restore ∧ (w.sense p).faulted = false)
      ∧ (p = .fault → w.faulted = true → sensorEvent p w = none ∧ (w.sense p).faulted = true)
      ∧ (p ≠ .fault → w.faulted = false → sensorEvent p w = none ∧ (w.sense p).faulted = false)
      ∧ w.sense p = { w with reading := (w.sense p).reading, faulted := (w.sense p).faulted }
      ∧ (∀ e, sensorEvent p w = some e → ∃ r rest, sampleRecords c k p w = r :: rest ∧ r.event = e ∧ r.channel = c)
      ∧ ((w.sense p).faulted = true ↔ (w.sense p).reading = .fault)

/-- The condition machine: in NORMAL, N beyond-high samples in a row make RAISED and a RISE; in RAISED, N back-within
samples in a row make NORMAL and a FALL; any other sample starts the count again, and a fault sample is beyond high and
never back within (R64, R65). -/
def Obligations.ConditionChangesAfterNSamplesInARow : Prop :=
  (∀ (k : ChannelConfig) (w : WatchRecord) (p : Sample), w.condition = .normal →
    (beyondHigh k p = true → w.riseCount + 1 < k.persistence →
        w.conditionStep k p = { w with riseCount := w.riseCount + 1 } ∧ conditionEvent k p w = none)
      ∧ (beyondHigh k p = true → w.riseCount + 1 = k.persistence →
        w.conditionStep k p = { w with condition := .raised, riseCount := 0 } ∧ conditionEvent k p w = some .rise)
      ∧ (beyondHigh k p = false → w.conditionStep k p = { w with riseCount := 0 } ∧ conditionEvent k p w = none))
    ∧ (∀ (k : ChannelConfig) (w : WatchRecord) (p : Sample), w.condition = .raised →
      (backWithin k p = true → w.fallCount + 1 < k.persistence →
          w.conditionStep k p = { w with fallCount := w.fallCount + 1 } ∧ conditionEvent k p w = none)
        ∧ (backWithin k p = true → w.fallCount + 1 = k.persistence →
          w.conditionStep k p = { w with condition := .normal, fallCount := 0 } ∧ conditionEvent k p w = some .fall)
        ∧ (backWithin k p = false → w.conditionStep k p = { w with fallCount := 0 } ∧ conditionEvent k p w = none)
        ∧ beyondHigh k .fault = true ∧ backWithin k .fault = false
        ∧ (∀ x, beyondHigh k (.valid x) = true ↔ k.highLimit ≤ x)
        ∧ (∀ x, backWithin k (.valid x) = true ↔ x ≤ k.highLimit - k.hysteresis))

/-- How a condition event is dealt with in each mode and report state, and what an acknowledgement does to an UNACKED
channel in EDGE and in ONCE mode (R67, R68, R69, R72, R73). -/
def Obligations.ReportsAndAcknowledgementsGoByMode : Prop :=
  (∀ (w : WatchRecord) (e : AlarmEvent),
    reports .level e w = true ∧ w.afterEvent .level e = { w with lastReported := w.condition }
      ∧ (w.reportState = .clear → reports .edge e w = true
        ∧ w.afterEvent .edge e = { w with lastReported := w.condition, reportState := .unacked })
      ∧ (w.reportState = .unacked → reports .edge e w = false ∧ w.afterEvent .edge e = w)
      ∧ (w.reportState = .clear → reports .once .rise w = true
        ∧ w.afterEvent .once .rise = { w with lastReported := w.condition, reportState := .unacked })
      ∧ (w.reportState = .unacked → reports .once .rise w = false
        ∧ w.afterEvent .once .rise = { w with unreportedRise := true })
      ∧ reports .once .fall w = false ∧ w.afterEvent .once .fall = w)
    ∧ (∀ w : WatchRecord,
      (w.condition = w.lastReported → ackEvent .edge w = none
          ∧ w.acknowledge .edge = { w with reportState := .clear })
        ∧ (w.condition ≠ w.lastReported → ackEvent .edge w = some (if w.condition = .raised then .rise else .fall)
          ∧ w.acknowledge .edge = { w with reportState := .unacked, lastReported := w.condition })
        ∧ (w.unreportedRise = true → w.condition = .raised → ackEvent .once w = some .rise
          ∧ w.acknowledge .once
            = { w with reportState := .unacked, lastReported := .raised, unreportedRise := false })
        ∧ (w.unreportedRise = false ∨ w.condition = .normal → ackEvent .once w = none
          ∧ w.acknowledge .once = { w with reportState := .clear, unreportedRise := false }))

/-- The critical machine on an enabled, critical enabled channel: N valid samples at or above critical high make CRITICAL,
and N at or below critical release make CALM (R79, R80). -/
def Obligations.CriticalTakesNValidSamples : Prop :=
  ∀ (k : ChannelConfig) (w : WatchRecord) (x : HalfDegrees), k.enabled = true → k.criticalEnabled = true →
    (w.criticalState = .calm →
        (k.criticalHigh ≤ x → w.criticalCount + 1 < k.persistence →
          w.criticalStep k (.valid x) = { w with criticalCount := w.criticalCount + 1 })
        ∧ (k.criticalHigh ≤ x → w.criticalCount + 1 = k.persistence →
          w.criticalStep k (.valid x) = { w with criticalState := .critical, criticalCount := 0 })
        ∧ (x < k.criticalHigh → w.criticalStep k (.valid x) = { w with criticalCount := 0 }))
      ∧ (w.criticalState = .critical →
        (x ≤ k.criticalRelease → w.criticalCount + 1 < k.persistence →
          w.criticalStep k (.valid x) = { w with criticalCount := w.criticalCount + 1 })
        ∧ (x ≤ k.criticalRelease → w.criticalCount + 1 = k.persistence →
          w.criticalStep k (.valid x) = { w with criticalState := .calm, criticalCount := 0 })
        ∧ (k.criticalRelease < x → w.criticalStep k (.valid x) = { w with criticalCount := 0 }))
      ∧ w.criticalStep k .fault = w

/-- The standing verdict, whenever it is computed, is CONCUR exactly if node critical holds, a channel corroborates, or
the trust flag is set; the ALERT output is asserted exactly while one of its causes holds, and SHUTDOWN exactly while the
latch is asserted (R46, R82, R84, R86, R187). -/
def Obligations.VerdictAndLinesFollowTheState : Prop :=
  (∀ s : State, s.standingNow = .concur ↔
    (∃ c, (s.watch c).criticalState = .critical)
      ∨ (∃ c, (s.channelCfg c).enabled = true ∧ (s.channelCfg c).corroborating = true
        ∧ (s.watch c).condition = .raised ∧ (s.watch c).faulted = false)
      ∨ s.cfg.trust = true)
    ∧ (∀ s : State,
      (s.alert = true ↔ (∃ c, (s.watch c).condition = .raised) ∨ (∃ c, (s.watch c).reportState = .unacked)
          ∨ (∃ c, (s.watch c).faulted = true) ∨ (∃ f, (s.fan f).condition = .failed) ∨ s.round.state ≠ .idle
          ∨ s.shutdownLatch = true)
        ∧ s.shutdownLine = s.shutdownLatch)

/-- The demand curve passes through its four points, never falls as the reading rises, and stays between d0 and d3 (R75,
R174). -/
def Obligations.DemandCurveRisesThroughItsPoints : Prop :=
  ∀ k : ChannelConfig, k.enabled = true → curveGood k = true →
    k.curve k.t0 = k.d0 ∧ k.curve k.t1 = k.d1 ∧ k.curve k.t2 = k.d2 ∧ k.curve k.t3 = k.d3
      ∧ (∀ x y, x ≤ y → (k.curve x).toNat ≤ (k.curve y).toNat)
      ∧ (∀ x, k.d0.toNat ≤ (k.curve x).toNat ∧ (k.curve x).toNat ≤ k.d3.toNat)

/-- ACK_LOCAL with a channel set acknowledges each enabled UNACKED channel of the set, once, and answers OK; what the channels
then report is queued in ascending channel order in an ACTIVE node, and a turn of the verdict reaches the round (R34, R36, R66, R71,
R72, R73, R87, R185). A grace interval of 0 halts in the same step (log 7). -/
def Obligations.AckLocalAcknowledgesTheSet : Prop :=
  ∀ (s : State) (x : ChannelSet), s.Answers → s.running = true → x ≠ 0 →
    ∃ t, exec (.ackLocal x) s = .next t
      ∧ (∀ c, t.watch c =
        if member x c = true ∧ (s.channelCfg c).enabled = true ∧ (s.watch c).reportState = .unacked
        then (s.watch c).acknowledge (s.channelCfg c).mode else s.watch c)
      ∧ t.standing = t.standingNow
      ∧ t.port = some (.response [0, 0] 0)
      ∧ t = { s with
          channels := t.channels
          standing := t.standing
          peers := t.peers
          round := t.round
          shutdownLatch := t.shutdownLatch
          fanA := t.fanA
          fanB := t.fanB
          queue := t.queue
          port := t.port }
      ∧ (∀ a, a ≠ s.own → t.peer a = s.peer a)
      ∧ s.SameSupervision t
      ∧ t.RoundAs (({ t with round := s.round, queue := s.queue, shutdownLatch := s.shutdownLatch, life := s.life
          }.reporting (s.ackRecords fun c => member x c)).verdictTurns s.standing)

/-! ## Fans (05) -/

/-- A tach edge sets the edge seen flag while the window deadline is armed, and has no effect while it is disarmed (R99).
-/
def Obligations.TachEdgeSetsEdgeSeen : Prop :=
  ∀ (s : State) (f : FanId),
    ((s.fan f).windowDeadline.isSome = true →
        exec (.tachEdge f) s = .next (s.setFan f { s.fan f with edgeSeen := true }))
      ∧ ((s.fan f).windowDeadline = none → exec (.tachEdge f) s = .next s)

/-- The expiry of a fall deadline lowers the duty by the smaller of the fall step and its excess over the target, and arms
the deadline again exactly while the duty is still above the target (R96, R100). -/
def Obligations.FallDeadlineStepsTheDuty : Prop :=
  ∀ (s : State) (f : FanId), Due (s.fan f).fallDeadline s.now →
    ∃ r, exec (.fallDeadlineExpires f) s = .next (s.setFan f r)
      ∧ r = { s.fan f with duty := r.duty, fallDeadline := r.fallDeadline, windowQualifies := r.windowQualifies }
      ∧ r.duty.toNat = (s.fan f).duty.toNat - min s.cfg.fallStep ((s.fan f).duty.toNat - (s.fan f).target.toNat)
      ∧ r.fallDeadline = (if r.target.toNat < r.duty.toNat then some (s.now + 500) else none)
      ∧ (r.duty ≠ (s.fan f).duty → r.windowQualifies
          = ((s.fan f).windowQualifies && !(decide (r.duty.toNat < s.cfg.stallFloor))))
      ∧ (r.duty = (s.fan f).duty → r.windowQualifies = (s.fan f).windowQualifies)

/-- The expiry of a window deadline judges the closed window, hands a change of fan state on to both targets and the own
entry, and opens the next window (R98, R101, R102, R103). An image is loaded whenever a window runs: the invariants
`FansSupervised` and `ConfiguredWhileRunning`. -/
def Obligations.WindowDeadlineClosesAndOpensAWindow : Prop :=
  ∀ (s : State) (f : FanId), Due (s.fan f).windowDeadline s.now →
    ∃ t, exec (.windowDeadlineExpires f) s = .next t
      ∧ t = { s with peers := t.peers, fanA := t.fanA, fanB := t.fanB }
      ∧ (∀ a, a ≠ s.own → t.peer a = s.peer a)
      ∧ (t.fan f).windowDeadline = some (s.now + 1000) ∧ (t.fan f).edgeSeen = false
      ∧ (t.fan f).windowQualifies = decide (s.cfg.stallFloor ≤ (t.fan f).duty.toNat)
      ∧ (t.fan f).condition = (s.fan f).judgeWindow.condition
      ∧ (t.fan f).stallCount = (s.fan f).judgeWindow.stallCount
      ∧ (t.fan f).goodCount = (s.fan f).judgeWindow.goodCount
      ∧ (t.fan (otherFan f)).condition = (s.fan (otherFan f)).condition
      ∧ (t.fan (otherFan f)).windowDeadline = (s.fan (otherFan f)).windowDeadline
      ∧ (t.fan (otherFan f)).edgeSeen = (s.fan (otherFan f)).edgeSeen
      ∧ ((t.fan f).condition = (s.fan f).condition → t.peers = s.peers
        ∧ t.fan (otherFan f) = s.fan (otherFan f)
        ∧ (t.fan f).duty = (s.fan f).duty ∧ (t.fan f).target = (s.fan f).target)
      ∧ ((t.fan f).condition ≠ (s.fan f).condition → s.image.isSome = true → TargetsCurrent t)
      ∧ ((t.fan f).condition ≠ (s.fan f).condition →
        (t.peer s.own).fanAFailed = t.fanFailed .a ∧ (t.peer s.own).fanBFailed = t.fanFailed .b)

/-- A closed window moves the counts, and three qualifying windows of one kind in a row change the fan state: without an
edge to FAILED, with one to OK; the good count stays 0 in OK and the stall count in FAILED (R101, R102). -/
def Obligations.ThreeQualifyingWindowsChangeTheFanState : Prop :=
  ∀ r : FanRecord,
    (r.windowQualifies = false → r.judgeWindow = r)
      ∧ (r.condition = .ok → r.windowQualifies = true →
        (r.edgeSeen = true → r.judgeWindow = { r with stallCount := 0 })
        ∧ (r.edgeSeen = false → r.stallCount + 1 < 3 → r.judgeWindow = { r with stallCount := r.stallCount + 1 })
        ∧ (r.edgeSeen = false → r.stallCount + 1 = 3 →
          r.judgeWindow = { r with condition := .failed, stallCount := 0 }))
      ∧ (r.condition = .failed → r.windowQualifies = true →
        (r.edgeSeen = true → r.goodCount + 1 < 3 → r.judgeWindow = { r with goodCount := r.goodCount + 1 })
        ∧ (r.edgeSeen = true → r.goodCount + 1 = 3 →
          r.judgeWindow = { r with condition := .ok, goodCount := 0 })
        ∧ (r.edgeSeen = false → r.judgeWindow = { r with goodCount := 0 }))
      ∧ (r.CountsInStep → r.judgeWindow.CountsInStep)

/-- A recomputation that raises the target above the duty raises the duty at once; one that leaves it below starts a fall,
or leaves a fall already begun its time (R95). The premise is the invariant `DutiesFollow`. -/
def Obligations.DutyFollowsARecomputedTarget : Prop :=
  ∀ (s : State) (f : FanId), (s.fan f).Follows s.cfg.stallFloor →
    (s.recomputeTargets.fan f).target = s.targetNow f
      ∧ ((s.fan f).duty.toNat < (s.targetNow f).toNat →
        (s.recomputeTargets.fan f).duty = s.targetNow f ∧ (s.recomputeTargets.fan f).fallDeadline = none)
      ∧ (s.targetNow f = (s.fan f).duty →
        (s.recomputeTargets.fan f).duty = (s.fan f).duty ∧ (s.recomputeTargets.fan f).fallDeadline = none)
      ∧ ((s.targetNow f).toNat < (s.fan f).duty.toNat → (s.fan f).fallDeadline = none →
        (s.recomputeTargets.fan f).duty = (s.fan f).duty
          ∧ (s.recomputeTargets.fan f).fallDeadline = some (s.now + 500))
      ∧ (∀ d, (s.targetNow f).toNat < (s.fan f).duty.toNat → (s.fan f).fallDeadline = some d →
        (s.recomputeTargets.fan f).duty = (s.fan f).duty ∧ (s.recomputeTargets.fan f).fallDeadline = some d)

/-- The unforced target is the larger of the fan floor and the largest weighted effective demand, and depends on the
stations through their effective demands alone (R92). -/
def Obligations.UnforcedTargetIsTheLargerOfFloorAndDemand : Prop :=
  ∀ (s : State) (f : FanId),
    (s.unforcedTarget f).toNat = max (s.fanCfg f).floor.toNat (s.largestDemand f)
      ∧ (∀ a, s.weightedDemand f a ≤ s.largestDemand f)
      ∧ (∃ a, s.weightedDemand f a = s.largestDemand f)
      ∧ ((∀ a, s.weightedDemand f a ≤ (s.fanCfg f).floor.toNat) → s.unforcedTarget f = (s.fanCfg f).floor)
      ∧ (∀ a, (s.fanCfg f).floor.toNat < s.weightedDemand f a →
        (s.unforcedTarget f).toNat = s.largestDemand f)
      ∧ (∀ t : State, t.fanCfg f = s.fanCfg f → (∀ a, t.effectiveDemand a = s.effectiveDemand a) →
        t.unforcedTarget f = s.unforcedTarget f)

/-- A target is 255 while a forcing condition holds and the unforced target otherwise. The recorded reason names the first
condition that holds; of an unforced target it is the floor where no station's weighted demand exceeds the floor, and
otherwise the lowest-numbered station whose weighted demand is the target (R93, R94, R104, R109). -/
def Obligations.ForcedTargetsAre255 : Prop :=
  ∀ (s : State) (f : FanId),
    (s.running = false ∨ s.round.state = .committed ∨ s.round.state = .halted ∨ s.shutdownLatch = true
        ∨ (s.fan (otherFan f)).condition = .failed → s.targetNow f = 255)
      ∧ (s.running = true → s.round.state ≠ .committed → s.round.state ≠ .halted → s.shutdownLatch = false →
        (s.fan (otherFan f)).condition = .ok → s.targetNow f = s.unforcedTarget f)
      ∧ (s.running = false → s.reasonNow f = .forced .nodeState)
      ∧ (s.running = true → s.round.state = .committed ∨ s.round.state = .halted →
        s.reasonNow f = .forced .roundDecided)
      ∧ (s.running = true → s.round.state ≠ .committed → s.round.state ≠ .halted →
        (s.shutdownLatch = true → s.reasonNow f = .forced .shutdownLatch)
          ∧ (s.shutdownLatch = false → (s.fan (otherFan f)).condition = .failed → s.reasonNow f = .forced .otherFan)
          ∧ (s.shutdownLatch = false → (s.fan (otherFan f)).condition = .ok →
            ((∀ a, s.weightedDemand f a ≤ (s.fanCfg f).floor.toNat) → s.reasonNow f = .floor)
              ∧ (∀ a, (s.fanCfg f).floor.toNat < s.weightedDemand f a →
                s.weightedDemand f a = (s.unforcedTarget f).toNat →
                (∀ b, b < a → s.weightedDemand f b ≠ (s.unforcedTarget f).toNat) → s.reasonNow f = .station a)))

/-! ## Peers (01) -/

/-- The effective demand of a station, by the table of R19; signature state plays no part, and after either reset it is 0.
-/
def Obligations.EffectiveDemandByPresence : Prop :=
  ∀ (s : State) (a : Station),
    (s.isOwn a = true → s.effectiveDemand a = (s.peer a).demand)
      ∧ (s.isOwn a = false → (s.peer a).presence = .present → (s.peer a).fanAFailed = false →
        (s.peer a).fanBFailed = false → s.effectiveDemand a = (s.peer a).demand)
      ∧ (s.isOwn a = false → (s.peer a).presence = .present →
        (s.peer a).fanAFailed = true ∨ (s.peer a).fanBFailed = true → s.effectiveDemand a = 255)
      ∧ (s.isOwn a = false → (s.peer a).presence = .silent → s.effectiveDemand a = 255)
      ∧ (s.isOwn a = false → (s.peer a).presence = .absent ∨ (s.peer a).presence = .departed →
        s.effectiveDemand a = 0)
      ∧ (∀ g v, (s.setPeer a { s.peer a with signatureState := g, signature := v }).effectiveDemand a
        = s.effectiveDemand a)
      ∧ State.reset.effectiveDemand a = 0
      ∧ (∀ t : State, exec .powerOn s = .next t ∨ exec .resetLineAsserted s = .next t → t.effectiveDemand a = 0)

/-- The silence deadline of a PRESENT entry makes it SILENT with a lost deadline at last heard plus T_lost, or DEPARTED at
once where that time has already come; the lost deadline of a SILENT entry makes it DEPARTED, its other fields as they
were. A change of P is followed by the commit test, which may commit the node, and nothing else of the round, the queue, the
latch or the leave-pending flag changes (R8, R9, R18, R36, R37). A grace interval of 0 halts in the same step (log 7). -/
def Obligations.AgeingDeadlinesMakeSilentAndDeparted : Prop :=
  (∀ (s : State) (a : Station) (h : Millis), a ≠ s.own → (s.peer a).presence = .present →
    Due (s.peer a).silenceDeadline s.now → (s.peer a).lastHeard = some h →
      ∃ t, exec (.silenceDeadlineExpires a) s = .next t ∧ s.AgeingEffect t a ∧ t.RoundAs (s.afterEntry t a)
        ∧ (s.now < h + s.cfg.lostCode * 10000 → t.peer a =
          { s.peer a with
            presence := .silent, silenceDeadline := none, lostDeadline := some (h + s.cfg.lostCode * 10000) })
        ∧ (h + s.cfg.lostCode * 10000 ≤ s.now → t.peer a =
          { s.peer a with presence := .departed, silenceDeadline := none, lostDeadline := none }))
    ∧ (∀ (s : State) (a : Station), a ≠ s.own → (s.peer a).presence = .silent →
      Due (s.peer a).lostDeadline s.now →
        ∃ t, exec (.lostDeadlineExpires a) s = .next t ∧ s.AgeingEffect t a ∧ t.RoundAs (s.afterEntry t a)
          ∧ t.peer a = { s.peer a with presence := .departed, lostDeadline := none })

/-- A LEAVE makes its sender's entry DEPARTED, from whichever state it was in, and keeps its other fields; what JOIN,
STATUS and ALARM leave in their sender's entry, once it has been refreshed, an ALARM record by record. A change of P or of the
entry's signature state is followed by the commit test, and LEAVE, JOIN and ALARM have no other effect on the round, the queue,
the latch or the leave-pending flag. The round fields of a STATUS are ignored of a MISMATCH sender and of an IDLE STATUS; OPEN opens the round, records the sender's verdict in the same
round, or displaces an older one; COMMITTED and HALTED are adopted (R6, R7, R12, R13, R14, R15, R18, R23, R29, R30, R31, R33,
R36, R40, R43, R44, R45, R167). How WAIT was entered is the model's field (log 9); a newer round displaces even where it
opens none (log 18); a co-proposal, a grace interval of 0 and the number of an abandoned record are as in logs 7, 16 and 23. -/
def Obligations.EntriesFollowTheFramesHeard : Prop :=
  (∀ (s : State) (a : Station), s.Hears a →
    ∃ t, exec (.receiveLeave a) s = .next t ∧ s.HearingEffect t a ∧ t.RoundAs (s.afterEntry t a)
      ∧ t.peer a = { s.peer a with
          presence := .departed, lastHeard := some s.now, silenceDeadline := none, lostDeadline := none })
    ∧ (∀ (s : State) (a : Station), s.Hears a →
      (∀ g d, ∃ t, exec (.receiveJoin a g d) s = .next t ∧ s.HearingEffect t a ∧ t.RoundAs (s.afterEntry t a)
          ∧ t.peer a =
            { presence := .present
              signatureState := if g = s.cfg.signature then .isMatch else .mismatch
              signature := some g
              demand := d
              raised := 0
              unacked := 0
              faulted := 0
              fanAFailed := false
              fanBFailed := false
              critical := false
              shutdownHeld := false
              reported := none
              lastHeard := some s.now
              silenceDeadline := some (s.now + s.cfg.silenceLimit)
              lostDeadline := none })
        ∧ (∀ f, validStatus f = true → ∃ t, exec (.receiveStatus a f) s = .next t ∧ s.HearingEffect t a
          ∧ t.peer a =
            { presence := .present
              signatureState := if f.signature = s.cfg.signature then .isMatch else .mismatch
              signature := some f.signature
              demand := f.demand
              raised := f.raised
              unacked := f.unacked
              faulted := f.faulted
              fanAFailed := f.fanAFailed
              fanBFailed := f.fanBFailed
              critical := f.critical
              shutdownHeld := f.shutdownHeld
              reported := some
                { number := f.roundNumber, state := f.roundState, verdict := f.verdict, proposers := f.proposers }
              lastHeard := some s.now
              silenceDeadline := some (s.now + s.cfg.silenceLimit)
              lostDeadline := none }
          ∧ (∀ u, u = s.afterEntry t a →
            (f.signature ≠ s.cfg.signature ∨ f.roundState = .idle ∨ u.round.state = .committed ∨ u.round.state = .halted →
              t.RoundAs u)
              ∧ (f.signature = s.cfg.signature → f.roundState = .opened →
                (u.round.state = .idle → f.roundNumber = u.round.lastClosed → t.RoundAs u)
                  ∧ (u.round.state = .idle → f.roundNumber ≠ u.round.lastClosed → t.RoundAs (u.shownOpenBy a f))
                  ∧ (u.round.state = .opened → f.roundNumber = u.round.number →
                    (f.verdict = none → t.RoundAs u)
                      ∧ (∀ v, f.verdict = some v → t.RoundAs (u.recording a v)))
                  ∧ (u.round.state = .opened → f.roundNumber ≠ u.round.number →
                    ((f.roundNumber - u.round.number).toNat ≤ 127 → t.RoundAs (u.abandoning.shownOpenBy a f))
                      ∧ (127 < (f.roundNumber - u.round.number).toNat → t.RoundAs u)))
              ∧ (f.signature = s.cfg.signature → f.roundState = .committed ∨ f.roundState = .halted →
                u.round.state = .idle ∨ u.round.state = .opened → t.RoundAs (u.adopting f.roundNumber none))))
        ∧ (∀ rs, validFrame (.alarm rs) = true → ∃ t, exec (.receiveAlarm a rs) s = .next t ∧ s.HearingEffect t a
          ∧ t.RoundAs (s.afterEntry t a)
          ∧ t.peer a = rs.foldl PeerEntry.applyRecord
            { s.peer a with
              presence := .present
              lastHeard := some s.now
              silenceDeadline := some (s.now + s.cfg.silenceLimit)
              lostDeadline := none }))
    ∧ (∀ (e : PeerEntry) (r : AlarmRecord),
      e.applyRecord r =
        { e with
          raised := if r.event = .rise then insertMember e.raised r.channel
            else if r.event = .fall then removeMember e.raised r.channel else e.raised
          faulted := if r.event = .fault then insertMember e.faulted r.channel
            else if r.event = .restore then removeMember e.faulted r.channel else e.faulted
          unacked := if r.needsAck then insertMember e.unacked r.channel else removeMember e.unacked r.channel })

/-- A PROPOSE, VOTE, WITHDRAW or COMMIT changes its sender's entry by the refresh and no further (R6, R16). How WAIT was
entered is the model's field (log 9). -/
def Obligations.RoundFramesOnlyRefreshTheEntry : Prop :=
  ∀ (s : State) (a : Station) (f : Frame), s.Hears a → validFrame f = true →
    f.kind = .propose ∨ f.kind = .vote ∨ f.kind = .withdraw ∨ f.kind = .commit →
      ∃ t, exec (receiveCommand a f) s = .next t ∧ s.HearingEffect t a
        ∧ t.peer a = { s.peer a with
            presence := .present
            lastHeard := some s.now
            silenceDeadline := some (s.now + s.cfg.silenceLimit)
            lostDeadline := none }

/-- An ACK refreshes its sender's entry and acknowledges, once, the union of the channel sets of its pairs that name this
node; what the channels then report is queued in ascending channel order in an ACTIVE node, and a turn of the verdict reaches
the round (R16, R18, R34, R36, R66, R71, R72, R73, R87). How WAIT was entered is the model's field (log 9), and a grace interval
of 0 halts in the same step (log 7). -/
def Obligations.AckActsOnThePairsThatNameThisNode : Prop :=
  ∀ (s : State) (a : Station) (ps : List AckPair), s.Hears a → validFrame (.ack ps) = true →
    ∃ t, exec (.receiveAck a ps) s = .next t
      ∧ (∀ c, t.watch c =
        if (∃ p ∈ ps, p.station = s.own ∧ member p.channels c = true) ∧ (s.channelCfg c).enabled = true
            ∧ (s.watch c).reportState = .unacked
        then (s.watch c).acknowledge (s.channelCfg c).mode else s.watch c)
      ∧ t.peer a = { s.peer a with
          presence := .present
          lastHeard := some s.now
          silenceDeadline := some (s.now + s.cfg.silenceLimit)
          lostDeadline := none }
      ∧ s.SameSupervision t
      ∧ (∀ b, b ≠ a → b ≠ s.own → t.peer b = s.peer b)
      ∧ t = { s with
          channels := t.channels
          standing := t.standing
          peers := t.peers
          eligible := t.eligible
          round := t.round
          shutdownLatch := t.shutdownLatch
          fanA := t.fanA
          fanB := t.fanB
          queue := t.queue
          link := { s.link with receiver := .wait, afterEndMark := true, ownOnWire := false } }
      ∧ t.RoundAs (((s.afterEntry t a).reporting
          (s.ackRecords fun c => ps.any fun p => p.station == s.own && member p.channels c)).verdictTurns s.standing)

/-- A valid frame under the node's own address that is not its own transmission is an address conflict, and no block takes
any part of it (R5, R140, R165, R169). How WAIT was entered is the model's field (logs 9 and 11). -/
def Obligations.OwnAddressHeardIsAConflict : Prop :=
  ∀ (s : State) (a : Station) (f : Frame), s.link.receiver = .receiving → s.link.ownOnWire = false →
    s.running = true → s.isOwn a = true → validFrame f = true →
      (s.life.nodeState = .conflict ∨ s.life.nodeState = .quiet → exec (receiveCommand a f) s = .next
          { s with link := { s.link with receiver := .wait, afterEndMark := true, ownOnWire := false } })
        ∧ (s.life.nodeState ≠ .conflict → s.life.nodeState ≠ .quiet → ∃ t, exec (receiveCommand a f) s = .next t
          ∧ t = { s with
              life :=
                { nodeState := .conflict, listenDeadline := none, recoveryDeadline := none, statusDeadline := none,
                  leavePending := false }
              link := { receiver := .wait, afterEndMark := true, ownOnWire := false, inFlight := none,
                        levels := s.link.levels, faults := s.link.faults }
              queue := []
              eligible := t.eligible
              fanA := t.fanA
              fanB := t.fanB }
          ∧ t.eligible = t.eligibleNow ∧ s.SameSupervision t)

/-- A frame that is discarded, or is the node's own transmission, moves the receiver to WAIT and nothing else; a frame
reaches no block of a node in LOADING or CONFIG_FAULT (R116, R127, R137, R138, R139). How WAIT was entered and the mark of the
own transmission are the model's fields (logs 9 and 11), and that a RECEIVE_ command with an invalid frame is discarded is its
choice (log 12). -/
def Obligations.UndeliveredFramesHaveNoEffect : Prop :=
  ∀ (s : State) (a : Station) (f : Frame) (w : RawFrame) (cause : ReceptionCause), s.link.receiver = .receiving →
    exec (.malformedFrameDiscarded w) s = .next
        { s with link := { s.link with receiver := .wait, afterEndMark := true, ownOnWire := false } }
      ∧ exec (.receptionFailure cause) s = .next
        { s with link := { s.link with receiver := .wait, afterEndMark := false, ownOnWire := false } }
      ∧ (s.link.ownOnWire = true ∨ s.running = false ∨ validFrame f = false → exec (receiveCommand a f) s = .next
        { s with link := { s.link with receiver := .wait, afterEndMark := true, ownOnWire := false } })

/-! ## Rounds (02) -/

/-- A PROPOSE taken while the record is IDLE opens its round, unless it is the one last closed; taken in the same open round
it merges, a newer round displaces the open one, and an older one, a decided record or a MISMATCH sender ignores it. An ACTIVE
node answers the opening with a PROPOSE of its own where it is critical, and else with its VOTE (R18, R23, R25, R27, R28, R29,
R31, R36, R40, R44, R48, R88, R167). A co-proposal, a grace interval of 0 and the number of an abandoned record are as in logs 7,
16 and 23. -/
def Obligations.ProposeOpensARound : Prop :=
  (∀ (s : State) (a : Station) (r : Byte) (c : Channel) (x : HalfDegrees), s.Hears a → legalReading x = true →
    s.round.state = .idle →
      ((s.peer a).signatureState ≠ .mismatch → r ≠ s.round.lastClosed →
          ∃ t, exec (.receivePropose a r c x) s = .next t ∧ t.round.number = r ∧ t.round.state ≠ .idle
            ∧ t.round.votes[a] = some .concur ∧ t.round.lastClosed = s.round.lastClosed
            ∧ t.round.reason = some { station := a, channel := c, reading := x }
            ∧ (s.isActive = false → t.round =
              { state := .opened
                number := r
                lastClosed := s.round.lastClosed
                proposers := single a
                reason := some { station := a, channel := c, reading := x }
                votes := (Vector.replicate 16 none).set a (some .concur)
                ownVerdict := some s.standing
                roundDeadline := some (s.now + s.cfg.roundSeconds * 1000)
                graceDeadline := s.round.graceDeadline
                concurSet := none }))
        ∧ ((s.peer a).signatureState = .mismatch ∨ r = s.round.lastClosed →
          ∃ t, exec (.receivePropose a r c x) s = .next t ∧ t.round = s.round))
    ∧ (∀ (s : State) (a : Station) (r : Byte) (c : Channel) (x : HalfDegrees), s.Hears a → legalReading x = true →
      ∃ t, exec (.receivePropose a r c x) s = .next t ∧ ∀ u, u = s.afterEntry t a →
        ((s.peer a).signatureState = .mismatch ∨ u.round.state = .committed ∨ u.round.state = .halted → t.RoundAs u)
          ∧ ((s.peer a).signatureState ≠ .mismatch →
            (u.round.state = .idle → r = u.round.lastClosed → t.RoundAs u)
              ∧ (u.round.state = .idle → r ≠ u.round.lastClosed → t.RoundAs (u.proposedBy a r c x))
              ∧ (u.round.state = .opened → r = u.round.number → t.RoundAs
                ({ u with round := { u.round with proposers := insertMember u.round.proposers a } }.recording a .concur))
              ∧ (u.round.state = .opened → r ≠ u.round.number →
                ((r - u.round.number).toNat ≤ 127 → t.RoundAs (u.abandoning.proposedBy a r c x))
                  ∧ (127 < (r - u.round.number).toNat → t.RoundAs u))))

/-- A VOTE for the open round records its sender's verdict, a CONCUR never being replaced, and the commit test follows: the
node goes on or commits. A VOTE for another round or from a MISMATCH sender is ignored. Where the refresh of the sender's
entry changes P, the commit test it brings comes first (R18, R23, R32, R35, R36, R37). A grace interval of 0 halts in the same
step (log 7). -/
def Obligations.VoteIsRecordedAndCounted : Prop :=
  ∀ (s : State) (a : Station) (r : Byte) (v : Verdict), s.Hears a →
    ∃ t, exec (.receiveVote a r v) s = .next t
      ∧ (s.RefreshIsQuiet a ∨ s.round.state ≠ .opened →
        (s.round.state ≠ .opened ∨ r ≠ s.round.number ∨ (s.peer a).signatureState = .mismatch → t.round = s.round)
          ∧ (s.round.state = .opened → r = s.round.number → (s.peer a).signatureState ≠ .mismatch →
            ∀ s' : State,
              s' = { s with round := { s.round with
                votes := if s.round.votes[a] = some .concur then s.round.votes else s.round.votes.set a (some v) } } →
              (s.isActive = false ∨ s'.concurCount < s'.quorum → t.round = s'.round)
                ∧ (s.isActive = true → s'.quorum ≤ s'.concurCount →
                  (t.round.state = .committed ∨ t.round.state = .halted)
                    ∧ t.round.number = r ∧ t.round.votes = s'.round.votes)))
      ∧ (∀ u, u = s.afterEntry t a →
        ((s.peer a).signatureState = .mismatch ∨ u.round.state ≠ .opened ∨ r ≠ u.round.number → t.RoundAs u)
          ∧ ((s.peer a).signatureState ≠ .mismatch → u.round.state = .opened → r = u.round.number →
            t.RoundAs (u.recording a v)))

/-- The commit test: an ACTIVE node with an open round and C at least Q commits by its own tally, and anything else leaves
the state as it is (R35, R36, R37, R45, R49). A grace interval of 0 halts in the same step (log 7). -/
def Obligations.CommitTestDecidesAtTheQuorum : Prop :=
  ∀ s : State,
    (s.isActive = false ∨ s.round.state ≠ .opened ∨ s.concurCount < s.quorum → s.commitTest = s)
      ∧ (s.isActive = true → s.round.state = .opened → s.quorum ≤ s.concurCount →
        ∃ set, (∀ a, member set a = true ↔ member s.concurring a = true
              ∨ (a = s.own ∧ s.round.ownVerdict = some .concur))
          ∧ s.commitTest.round =
            { s.round with
              state := if s.cfg.graceSeconds = 0 then .halted else .committed
              proposers := 0
              roundDeadline := none
              graceDeadline := if s.cfg.graceSeconds = 0 then none else some (s.now + s.cfg.graceSeconds * 1000)
              concurSet := some set }
          ∧ s.commitTest.shutdownLatch = (s.shutdownLatch || decide (s.cfg.graceSeconds = 0))
          ∧ s.commitTest.queue = withoutKind (s.queue.filter fun f => !isUndecidedRound f) .commit
            ++ [.commit s.round.number set]
          ∧ TargetsCurrent s.commitTest
          ∧ s.commitTest = { s with
              round := s.commitTest.round
              shutdownLatch := s.commitTest.shutdownLatch
              queue := s.commitTest.queue
              peers := s.commitTest.peers
              fanA := s.commitTest.fanA
              fanB := s.commitTest.fanB })

/-- A COMMIT heard while the record is IDLE or OPEN is adopted whatever its number; a MISMATCH sender is ignored, and so is a
COMMIT that finds the record decided. Where the refresh of the sender's entry changes P, the commit test it brings comes first
(R18, R23, R36, R42, R44, R45). A grace interval of 0 halts in the same step (log 7). -/
def Obligations.CommitIsAdopted : Prop :=
  (∀ (s : State) (a : Station) (r : Byte) (cs : StationSet), s.Hears a →
    s.round.state = .idle ∨ (s.round.state = .opened ∧ s.RefreshIsQuiet a) →
      ((s.peer a).signatureState ≠ .mismatch → ∃ t, exec (.receiveCommit a r cs) s = .next t
          ∧ t.round =
            { state := if s.cfg.graceSeconds = 0 then .halted else .committed
              number := r
              lastClosed := s.round.lastClosed
              proposers := 0
              reason := if s.round.state = .opened ∧ s.round.number = r then s.round.reason else none
              votes := if s.round.state = .opened ∧ s.round.number = r then s.round.votes
                else Vector.replicate 16 none
              ownVerdict := if s.round.state = .opened ∧ s.round.number = r then s.round.ownVerdict else none
              roundDeadline := none
              graceDeadline := if s.cfg.graceSeconds = 0 then none else some (s.now + s.cfg.graceSeconds * 1000)
              concurSet := some cs }
          ∧ t.shutdownLatch = (s.shutdownLatch || decide (s.cfg.graceSeconds = 0))
          ∧ t.queue = s.queue.filter (fun f => !isUndecidedRound f)
          ∧ (∀ f, (t.fan f).target = 255))
        ∧ ((s.peer a).signatureState = .mismatch → ∃ t, exec (.receiveCommit a r cs) s = .next t
          ∧ t.round = s.round))
    ∧ (∀ (s : State) (a : Station) (r : Byte) (cs : StationSet), s.Hears a →
      ∃ t, exec (.receiveCommit a r cs) s = .next t ∧ ∀ u, u = s.afterEntry t a →
        ((s.peer a).signatureState = .mismatch ∨ u.round.state = .committed ∨ u.round.state = .halted → t.RoundAs u)
          ∧ ((s.peer a).signatureState ≠ .mismatch → u.round.state = .idle ∨ u.round.state = .opened →
            t.RoundAs (u.adopting r (some cs))))

/-- The grace deadline asserts the shutdown latch and makes the record HALTED; both fans are forced and the own entry
shows shutdown held (R45, R46, R94). -/
def Obligations.GraceDeadlineAssertsTheLatch : Prop :=
  ∀ s : State, s.round.state = .committed → Due s.round.graceDeadline s.now →
    ∃ t, exec .graceDeadlineExpires s = .next t
      ∧ t = { s with
          round := { s.round with state := .halted, graceDeadline := none }
          shutdownLatch := true
          peers := t.peers
          fanA := t.fanA
          fanB := t.fanB }
      ∧ t.peer s.own = { s.peer s.own with shutdownHeld := true }
      ∧ (∀ a, a ≠ s.own → t.peer a = s.peer a)
      ∧ (∀ f, (t.fan f).target = 255) ∧ s.SameSupervision t

/-- The round deadline abandons the round; a node that is still ACTIVE and critical opens the next at once (R24, R26, R36,
R40, R41). The record keeps its number while IDLE (log 23), and a grace interval of 0 halts in the same step (log 7). -/
def Obligations.RoundDeadlineAbandonsTheRound : Prop :=
  ∀ s : State, s.round.state = .opened → Due s.round.roundDeadline s.now →
    ∃ t, exec .roundDeadlineExpires s = .next t ∧ t.round.lastClosed = s.round.number
      ∧ ((s.isActive && s.nodeCritical) = false →
        t.round =
            { s.round with
              lastClosed := s.round.number
              state := .idle
              proposers := 0
              votes := Vector.replicate 16 none
              reason := none
              ownVerdict := none
              concurSet := none
              roundDeadline := none }
          ∧ t.queue = s.queue.filter (fun f => !isProposeOrVote f)
          ∧ t = { s with round := t.round, queue := t.queue, fanA := t.fanA, fanB := t.fanB })
      ∧ ((s.isActive && s.nodeCritical) = true →
        t.round.number = s.round.number + 1 ∧ t.round.state ≠ .idle ∧ t.round.ownVerdict = some .concur
          ∧ t.RoundAs s.abandoning.proposing
          ∧ t = { s with
              round := t.round
              shutdownLatch := t.shutdownLatch
              queue := t.queue
              life := { s.life with leavePending := t.life.leavePending }
              peers := t.peers
              fanA := t.fanA
              fanB := t.fanB })

/-- A WITHDRAW for the open round takes its sender out of the proposer set, and the round is abandoned when that leaves
the set empty; a node that is still ACTIVE and critical opens the next at once. A MISMATCH sender, a station that is no
proposer or another round is ignored. Where the refresh of the sender's entry changes P, the commit test it brings comes first
(R18, R23, R24, R26, R36, R39, R40). A grace interval of 0 and the number of an abandoned record are as in logs 7 and 23. -/
def Obligations.WithdrawRemovesAProposer : Prop :=
  ∀ (s : State) (a : Station) (r : Byte), s.Hears a →
    ∃ t, exec (.receiveWithdraw a r) s = .next t
      ∧ (s.RefreshIsQuiet a ∨ s.round.state ≠ .opened →
        (s.round.state ≠ .opened ∨ r ≠ s.round.number ∨ member s.round.proposers a = false
          ∨ (s.peer a).signatureState = .mismatch → t.round = s.round)
          ∧ (s.round.state = .opened → r = s.round.number → member s.round.proposers a = true →
            (s.peer a).signatureState ≠ .mismatch →
              (removeMember s.round.proposers a ≠ 0 →
                t.round = { s.round with proposers := removeMember s.round.proposers a })
              ∧ (removeMember s.round.proposers a = 0 → t.round.lastClosed = r)
              ∧ (removeMember s.round.proposers a = 0 → (s.isActive && s.nodeCritical) = false →
                t.round.state = .idle ∧ t.round.ownVerdict = none
                  ∧ t.queue = s.queue.filter fun f => !isProposeOrVote f)))
      ∧ (∀ u, u = s.afterEntry t a →
        ((s.peer a).signatureState = .mismatch ∨ u.round.state ≠ .opened ∨ r ≠ u.round.number
            ∨ member u.round.proposers a = false → t.RoundAs u)
          ∧ ((s.peer a).signatureState ≠ .mismatch → u.round.state = .opened → r = u.round.number →
            member u.round.proposers a = true →
              (removeMember u.round.proposers a ≠ 0 →
                t.RoundAs { u with round := { u.round with proposers := removeMember u.round.proposers a } })
              ∧ (removeMember u.round.proposers a = 0 → u.isActive = false ∨ u.nodeCritical = false →
                t.RoundAs u.abandoning)
              ∧ (removeMember u.round.proposers a = 0 → u.isActive = true → u.nodeCritical = true →
                t.RoundAs u.abandoning.proposing)))

/-- Only power-on clears the shutdown latch (R46). -/
def Obligations.OnlyPowerOnClearsTheLatch : Prop :=
  ∀ s t : State, s.shutdownLatch = true → step s = .next t → s.pending.head? ≠ some .powerOn →
    t.shutdownLatch = true

/-- A COMMITTED or HALTED record is left as it is by every command but the two resets and the grace deadline's expiry,
which alone makes COMMITTED into HALTED (R44, R45). -/
def Obligations.CommitmentIsNeverTakenBack : Prop :=
  ∀ (c : Instr) (s t : State), s.round.state = .committed ∨ s.round.state = .halted → exec c s = .next t →
    c ≠ .powerOn → c ≠ .resetLineAsserted →
      t.round = s.round
        ∨ (c = .graceDeadlineExpires ∧ s.round.state = .committed
          ∧ t.round = { s.round with state := .halted, graceDeadline := none })

/-! ## Link and queue (07, 08) -/

/-- What moves the receiver: a quiet wire for the gap it needs takes it from WAIT to IDLE, a start mark from IDLE to
RECEIVING, and the end of a faulted frame that another station drove back to WAIT (R127, R133, R139; the counts of bit
periods and the mark of the own transmission as in logs 9 and 11). -/
def Obligations.ReceiverMovesWithTheWire : Prop :=
  ∀ (s : State) (n : Nat),
    (s.running = true → s.link.receiver = .wait → (if s.link.afterEndMark then 11 else 16) ≤ n →
        exec (.idleGapElapsed n) s = .next { s with link := { s.link with receiver := .idle } })
      ∧ (s.link.receiver = .idle → exec .startMarkReceived s = .next
        { s with link := { s.link with receiver := .receiving, ownOnWire := false } })
      ∧ (s.link.receiver = .receiving → s.link.ownOnWire = true → s.link.inFlight = none →
        exec .faultedFrameReceptionEnds s = .next
          { s with link := { s.link with receiver := .wait, afterEndMark := true, ownOnWire := false } })

/-- A transmission begins when the receiver is IDLE, nothing is in flight, the node is JOINING or ACTIVE and an entry is
pending: the head leaves the queue and is in flight, a STATUS with the snapshot of this moment, whose round fields go by the
state of the record; the frame is the node's own transmission from then on (R51, R112, R127, R128, R132, R139, R146). The
levels of the wire are the command's operand (logs 10, 11 and 13). -/
def Obligations.TransmissionTakesTheHead : Prop :=
  (∀ (s : State) (wire : List Bool) (f : Pending), s.link.receiver = .idle → s.link.inFlight = none →
    s.life.nodeState = .joining ∨ s.life.nodeState = .active → headEntry s.queue = some f →
      exec (.beginTransmission wire) s = .next
        { s with
          queue := withoutKind s.queue f.kind
          link :=
            { s.link with
              inFlight := some (f.withStatus s.statusSnapshot)
              levels := wire
              receiver := if wire.head? = some false then .receiving else .idle
              ownOnWire := decide (wire.head? = some false) } })
    ∧ (∀ (s : State) (g : Word16), (s.peer s.own).signature = some g →
      s.statusSnapshot =
        { demand := (s.peer s.own).demand
          raised := (s.peer s.own).raised
          unacked := (s.peer s.own).unacked
          faulted := (s.peer s.own).faulted
          fanAFailed := (s.peer s.own).fanAFailed
          fanBFailed := (s.peer s.own).fanBFailed
          critical := (s.peer s.own).critical
          shutdownHeld := (s.peer s.own).shutdownHeld
          roundNumber := match s.round.state with
            | .idle => s.round.lastClosed
            | .opened | .committed | .halted => s.round.number
          roundState := s.round.state
          verdict := match s.round.state with
            | .idle => none
            | .opened | .committed | .halted => s.round.ownVerdict
          proposers := match s.round.state with
            | .opened => s.round.proposers
            | .idle | .committed | .halted => 0
          signature := g })

/-- The head of the queue is the oldest of the entries of the lowest class (R142). -/
def Obligations.HeadIsTheOldestOfTheLowestClass : Prop :=
  ∀ q : List Pending,
    (headEntry q = none ↔ q = [])
      ∧ (∀ f, headEntry q = some f ↔ ∃ older younger, q = older ++ f :: younger
        ∧ (∀ g ∈ older, f.kind.cls < g.kind.cls) ∧ (∀ g ∈ younger, f.kind.cls ≤ g.kind.cls))

/-- Each bit sent is read back: within the key by the four-row table, outside it any difference is a fault, and the first bit
that does not go on decides. A lost arbitration, or a transmit fault below the limit, returns the frame in flight to the queue,
a round frame if it is still current; the fault that brings the count to 8 discards it and takes the node to LINK_OFF or QUIET
with an empty queue; a frame that is not so read back is neither (R50, R130, R131, R132, R133, R135, R139, R163, R165). The mark
of the own transmission and the levels read are the model's (logs 11, 13 and 29). -/
def Obligations.LostAndFaultedFramesReturnBelowTheLimit : Prop :=
  (∀ (s : State) (f : Frame) (more : List Bool), s.link.inFlight = some f →
    (s.readsBack f [] = .lost → exec .arbitrationLost s = .next
        { s with
          queue := returned s.queue f (s.isCurrent f)
          link := { s.link with inFlight := none, ownOnWire := false } })
      ∧ (s.readsBack f [] ≠ .lost → exec .arbitrationLost s = .next s)
      ∧ (s.readsBack f more ≠ .faulted → exec (.transmitFault more) s = .next s)
      ∧ (s.readsBack f more = .faulted → s.link.faults + 1 < 8 → exec (.transmitFault more) s = .next
        { s with
          queue := returned s.queue f (s.isCurrent f)
          link := { s.link with inFlight := none, faults := s.link.faults + 1 } })
      ∧ (s.readsBack f more = .faulted → s.link.faults + 1 = 8 →
        s.life.nodeState = .joining ∨ s.life.nodeState = .active →
        ∃ t, exec (.transmitFault more) s = .next t
          ∧ t.life.nodeState = (if s.life.nodeState = .active ∧ (s.life.leavePending = true ∨ f.kind = .leave)
            then .quiet else .linkOff)
          ∧ t.life.recoveryDeadline = (if t.life.nodeState = .linkOff
            then some (s.now + 4 * (s.cfg.statCode * 250)) else none)
          ∧ t.life.leavePending = false ∧ t.queue = [] ∧ t.link = { s.link with inFlight := none, faults := 8 }
          ∧ t = { s with
              life := t.life
              queue := t.queue
              link := t.link
              eligible := t.eligible
              fanA := t.fanA
              fanB := t.fanB }
          ∧ t.eligible = t.eligibleNow ∧ s.SameSupervision t))
    ∧ (∀ w : RawFrame, keyPeriods w
      = if (w.cls = 0 ∧ w.source.toNat < 4) ∨ (w.cls = 7 ∧ 14 ≤ w.source.toNat) then 8 else 7)
    ∧ keyOutcome false false = .goesOn ∧ keyOutcome true true = .goesOn ∧ keyOutcome true false = .lost
    ∧ keyOutcome false true = .faulted
    ∧ (∀ (s : State) (f : Frame) (more read rest : List Bool) (sent got : Bool) (tail : List Bool),
      s.link.levels ++ more = read ++ got :: rest → wireBits (encodeRaw s.own f) = read ++ sent :: tail →
        got ≠ sent →
          (1 ≤ read.length → read.length ≤ keyPeriods (encodeRaw s.own f) → sent = true → s.readsBack f more = .lost)
            ∧ (1 ≤ read.length → read.length ≤ keyPeriods (encodeRaw s.own f) → sent = false →
              s.readsBack f more = .faulted)
            ∧ (read.length = 0 ∨ keyPeriods (encodeRaw s.own f) < read.length → s.readsBack f more = .faulted))
    ∧ (∀ (s : State) (f : Frame) (more rest : List Bool),
      (wireBits (encodeRaw s.own f) = (s.link.levels ++ more) ++ rest → rest ≠ [] → s.readsBack f more = .driving)
        ∧ (s.link.levels ++ more = wireBits (encodeRaw s.own f) ++ rest → s.readsBack f more = .completed))
    ∧ (∀ (s : State) (r : Byte),
      (∀ (c : Channel) (x : HalfDegrees), s.isCurrent (.propose r c x) = true ↔
          s.round.state = .opened ∧ s.round.number = r ∧ member s.round.proposers s.own = true)
        ∧ (∀ v, s.isCurrent (.vote r v) = true ↔ s.round.state = .opened ∧ s.round.number = r)
        ∧ (s.isCurrent (.withdraw r) = true ↔
          (s.round.state = .opened ∧ s.round.number = r ∧ member s.round.proposers s.own = false)
            ∨ ((s.round.state = .idle ∨ s.round.state = .opened) ∧ s.round.lastClosed = r))
        ∧ (∀ cs, s.isCurrent (.commit r cs) = true))

/-- A frame that won arbitration and met no fault completes at the last bit of its end mark, and is gone, with the fault count
0; a completed LEAVE takes the node to QUIET, and a completed JOIN to ACTIVE with a STATUS asked for. On that entry a critical
node opens a round from an IDLE record, a node whose record is OPEN co-proposes or votes and the commit test follows, and an
IDLE record of a node that is not critical, or a decided one, stays as it is; the change of P is taken before the entry or after
it, each followed by the commit test. A frame that lost or faulted by the levels read, or has not won yet, does not complete
(R18, R24, R25, R36, R53, R130, R134, R150, R161, R165, R167). How WAIT was entered is the model's field (log 9), and so are the
levels read and the count of free choices (logs 13 and 19); which of the entry and the change of P comes first is free (log 6);
a co-proposal and a grace interval of 0 are as in logs 7 and 16. An OPEN record has an own verdict: the invariant
`RoundInStep`. -/
def Obligations.CompletionClearsTheFlight : Prop :=
  (∀ (s : State) (f : Frame), s.link.inFlight = some f → s.readsTrue f = true →
    ∃ t, exec .frameCompletes s = .next t
      ∧ t.link = { receiver := .wait, afterEndMark := true, ownOnWire := false, inFlight := none,
                   levels := s.link.levels, faults := 0 }
      ∧ (f.kind ≠ .join → f.kind ≠ .leave → t = { s with link := t.link })
      ∧ (f.kind = .leave → s.life.nodeState = .active → t.life.nodeState = .quiet ∧ t.queue = []
        ∧ t.life.statusDeadline = none
        ∧ t = { s with
            link := t.link
            life := t.life
            queue := t.queue
            eligible := t.eligible
            fanA := t.fanA
            fanB := t.fanB })
      ∧ (f.kind = .join → s.life.nodeState = .joining → t.life.nodeState = .active
        ∧ t.life.statusDeadline = some (s.now + s.cfg.statCode * 250) ∧ pendingKind t.queue .status = true
        ∧ t.eligible = t.eligibleNow
        ∧ (s.nodeCritical = true → s.round.state = .idle →
          t.round.number = s.round.lastClosed + 1 ∧ t.round.state ≠ .idle)
        ∧ t = { s with
            link := t.link
            life := t.life
            queue := t.queue
            eligible := t.eligible
            peers := t.peers
            round := t.round
            shutdownLatch := t.shutdownLatch
            fanA := t.fanA
            fanB := t.fanB
            choices := s.choices + 1 }
        ∧ (∀ u : State, u = { s with
              link := t.link
              life := { s.life with nodeState := .active, statusDeadline := t.life.statusDeadline }
              queue := if pendingKind s.queue .status then s.queue else s.queue ++ [.status ()] } →
            ((s.round.state = .idle ∧ s.nodeCritical = false) ∨ s.round.state = .committed ∨ s.round.state = .halted →
                t.RoundAs u)
              ∧ ((s.round.state = .opened → s.round.ownVerdict.isSome = true) →
                t.RoundAs (u.entering.counting t.eligible) ∨ t.RoundAs (u.counting t.eligible).entering))))
    ∧ (∀ (s : State) (f : Frame), s.link.inFlight = some f →
      (s.readsTrue f = false → exec .frameCompletes s = .next s)
        ∧ (s.readsTrue f = true ↔ wonArbitration (encodeRaw s.own f) s.link.levels = true
          ∧ s.readsBack f [] ≠ .faulted)
        ∧ (wonArbitration (encodeRaw s.own f) s.link.levels = true ↔
          ∃ key rest tail, key.length = keyPeriods (encodeRaw s.own f) + 1
            ∧ s.link.levels = key ++ rest ∧ wireBits (encodeRaw s.own f) = key ++ tail))

/-- What an admitted frame does to the queue, by kind, what it drops in a node state that does not admit it, and what a
frame returned from the wire does; a kind not pending becomes the youngest entry. A record takes the place of the record of
its slot, or the end of the list, and a pair unites with the pair of its station, or takes the end (R113, R114, R142, R143, R144,
R146, R147, R148, R149). -/
def Obligations.QueueActsByKind : Prop :=
  (∀ (s : State) (f : Pending),
    ((f.kind = .join ∧ s.life.nodeState ≠ .joining) ∨ (f.kind ≠ .join ∧ s.life.nodeState ≠ .active) → s.offer f = s)
      ∧ ((f.kind = .join ∧ s.life.nodeState = .joining) ∨ (f.kind ≠ .join ∧ s.life.nodeState = .active) →
        (s.offer f = { s with queue := (s.offer f).queue })
        ∧ (∀ k, k ≠ f.kind → pendingKind (s.offer f).queue k = pendingKind s.queue k)
        ∧ pendingKind (s.offer f).queue f.kind = true
        ∧ (pendingKind s.queue f.kind = false → (∀ rs, f ≠ .alarm rs) → (∀ ps, f ≠ .ack ps) →
          (s.offer f).queue = s.queue ++ [f])
        ∧ (∀ rs, f = .alarm rs → pendingKind s.queue .alarm = false →
          (s.offer f).queue = s.queue ++ [.alarm (placeRecords [] rs)])
        ∧ (∀ ps, f = .ack ps → pendingKind s.queue .ack = false →
          (s.offer f).queue = s.queue ++ [.ack (mergePairs [] ps)])
        ∧ (f.kind = .propose ∨ f.kind = .vote ∨ f.kind = .withdraw ∨ f.kind = .commit →
          (s.offer f).queue = withoutKind s.queue f.kind ++ [f])
        ∧ (f.kind = .status ∨ f.kind = .join ∨ f.kind = .leave → pendingKind s.queue f.kind = true →
          (s.offer f).queue = s.queue)
        ∧ (∀ rs, f = .alarm rs → pendingKind s.queue .alarm = true →
          (s.offer f).queue = s.queue.map (growAlarm rs))
        ∧ (∀ ps, f = .ack ps → pendingKind s.queue .ack = true →
          (s.offer f).queue = s.queue.map (growAck ps))))
    ∧ (∀ (q : List Pending) (f : Frame) (current : Bool),
      (f.kind = .propose ∨ f.kind = .vote ∨ f.kind = .withdraw → current = false → returned q f current = q)
        ∧ (f.kind ≠ .alarm → f.kind ≠ .ack → pendingKind q f.kind = true → returned q f current = q)
        ∧ (f.kind ≠ .alarm → f.kind ≠ .ack → pendingKind q f.kind = false → current = true →
          returned q f current = f.asPending :: q)
        ∧ (∀ rs, f = .alarm rs → returned q f current
          = .alarm (placeRecords rs (pendingRecords q)) :: withoutKind q .alarm)
        ∧ (∀ ps, f = .ack ps → returned q f current = .ack (mergePairs ps (pendingPairs q)) :: withoutKind q .ack))
    ∧ (∀ r x : AlarmRecord, sameSlot r x = true ↔ r.channel = x.channel
      ∧ ((r.event = .rise ∨ r.event = .fall) ↔ (x.event = .rise ∨ x.event = .fall)))
    ∧ (∀ (l : List AlarmRecord) (r : AlarmRecord),
      placeRecords l [] = l ∧ (∀ rs, placeRecords l (r :: rs) = placeRecords (placeRecord l r) rs)
        ∧ ((∀ x ∈ l, sameSlot r x = false) → placeRecord l r = l ++ [r])
        ∧ (∀ xs x ys, l = xs ++ x :: ys → sameSlot r x = true →
          (∀ y ∈ xs, sameSlot r y = false) → (∀ y ∈ ys, sameSlot r y = false) → placeRecord l r = xs ++ r :: ys))
    ∧ (∀ (l : List AckPair) (p : AckPair),
      mergePairs l [] = l ∧ (∀ ps, mergePairs l (p :: ps) = mergePairs (mergePair l p) ps)
        ∧ ((∀ x ∈ l, x.station ≠ p.station) → mergePair l p = l ++ [p])
        ∧ (∀ xs x ys, l = xs ++ x :: ys → x.station = p.station →
          (∀ y ∈ xs, y.station ≠ p.station) → (∀ y ∈ ys, y.station ≠ p.station) →
          mergePair l p = xs ++ { station := p.station, channels := x.channels ||| p.channels } :: ys))
    ∧ (∀ (q : List Pending) (l : List AlarmRecord) (rs : List AlarmRecord) (m : List AckPair) (ps : List AckPair),
      growAlarm rs (.alarm l) = .alarm (placeRecords l rs) ∧ growAck ps (.ack m) = .ack (mergePairs m ps)
        ∧ (∀ f : Pending, f.kind ≠ .alarm → growAlarm rs f = f) ∧ (∀ f : Pending, f.kind ≠ .ack → growAck ps f = f)
        ∧ (pendingKind q .alarm = false → pendingRecords q = []) ∧ (pendingKind q .ack = false → pendingPairs q = []))

/-! ## Life cycle (09) -/

/-- The listen deadline takes LISTENING to JOINING with a JOIN of this moment's signature and demand; the recovery
deadline takes LINK_OFF to LISTENING with the fault count 0; the status deadline of an ACTIVE node asks for a STATUS
(R135, R144, R159, R162, R164). -/
def Obligations.LifeDeadlinesMoveTheNodeState : Prop :=
  ∀ s : State,
    (s.life.nodeState = .listening → Due s.life.listenDeadline s.now →
        ∃ t, exec .listenDeadlineExpires s = .next t
          ∧ t = { s with
              life := { s.life with nodeState := .joining, listenDeadline := none }
              queue := if pendingKind s.queue .join then s.queue
                else s.queue ++ [.join s.cfg.signature s.localDemand]
              fanA := t.fanA
              fanB := t.fanB }
          ∧ s.SameSupervision t)
      ∧ (s.life.nodeState = .linkOff → Due s.life.recoveryDeadline s.now →
        ∃ t, exec .recoveryDeadlineExpires s = .next t
          ∧ t = { s with
              life := { s.life with
                nodeState := .listening
                recoveryDeadline := none
                listenDeadline := some (s.now + 2 * (s.cfg.silenceMultiple * (s.cfg.statCode * 250))) }
              link := { s.link with faults := 0 }
              fanA := t.fanA
              fanB := t.fanB }
          ∧ s.SameSupervision t)
      ∧ (s.life.nodeState = .active → Due s.life.statusDeadline s.now →
        exec .statusDeadlineExpires s = .next
          { s with
            life := { s.life with statusDeadline := some (s.now + s.cfg.statCode * 250) }
            queue := if pendingKind s.queue .status then s.queue else s.queue ++ [.status ()] })

/-! ## Diagnostic port (11) -/

/-- The five commands that read are answered OK with the items of their command and change nothing else in the node. In
LOADING and CONFIG_FAULT every command but NODE is answered NOT_READY; from LISTENING onward an argument out of range is
answered BAD_ARGUMENT, and so is an unknown code in every state (R124, R156, R158, R179 to R184). The encodings of the
items are those of log 14, and a held RESET line silences the port (log 4). -/
def Obligations.RequestsAreJudgedInOrder : Prop :=
  (∀ s : State, s.Answers →
    exec .node s = .next
        { s with port := some (.response (0 :: BitVec.ofNat 8 s.nodeItems.length :: s.nodeItems) 0) }
      ∧ (s.running = true →
        exec .round s = .next
            { s with port := some (.response (0 :: BitVec.ofNat 8 s.roundItems.length :: s.roundItems) 0) }
          ∧ (∀ (b : Byte) (a : Station), b.toNat = a.val →
            exec (.peer b) s = .next
              { s with
                port := some (.response (0 :: BitVec.ofNat 8 (s.peerItems a).length :: s.peerItems a) 0) })
          ∧ (∀ (b : Byte) (c : Channel), b.toNat = c.val →
            exec (.channel b) s = .next
              { s with
                port := some (.response (0 :: BitVec.ofNat 8 (s.channelItems c).length :: s.channelItems c) 0) })
          ∧ (∀ (b : Byte) (f : FanId), (b = 0 ∧ f = .a) ∨ (b = 1 ∧ f = .b) →
            exec (.fan b) s = .next
              { s with
                port := some (.response (0 :: BitVec.ofNat 8 (s.fanItems f).length :: s.fanItems f) 0) })))
    ∧ (∀ s : State, s.Answers →
      (s.running = false → ∀ (c : Instr), c = .round ∨ (∃ b, c = .peer b) ∨ (∃ b, c = .channel b) ∨ (∃ b, c = .fan b)
          ∨ (∃ x, c = .ackLocal x) ∨ (∃ b x, c = .ackRemote b x) ∨ c = .leave →
          exec c s = .next { s with port := some (.response [2, 0] 0) })
        ∧ (s.running = true → ∀ (c : Instr), (∃ b : Byte, c = .peer b ∧ 16 ≤ b.toNat)
          ∨ (∃ b : Byte, c = .channel b ∧ 8 ≤ b.toNat) ∨ (∃ b : Byte, c = .fan b ∧ 2 ≤ b.toNat) ∨ c = .ackLocal 0
          ∨ (∃ b x, c = .ackRemote b x ∧ (16 ≤ b.toNat ∨ x = 0)) →
          exec c s = .next { s with port := some (.response [3, 0] 0) })
        ∧ (∀ b : Byte, b = 0 ∨ 8 < b.toNat →
          exec (.unknownCommand b) s = .next { s with port := some (.response [3, 0] 0) }))

/-- ACK_REMOTE: the node's own address acts as ACK_LOCAL, a node that is not ACTIVE is NOT_READY, a fifth station is BUSY,
and otherwise the pair is offered to the queue (R114, R145, R185). -/
def Obligations.AckRemoteIsJudgedByStation : Prop :=
  ∀ (s : State) (b : Byte) (x : ChannelSet) (a : Station), s.Answers → s.running = true → b.toNat = a.val → x ≠ 0 →
    (a = s.own → exec (.ackRemote b x) s = exec (.ackLocal x) s)
      ∧ (a ≠ s.own → s.isActive = false →
        exec (.ackRemote b x) s = .next { s with port := some (.response [2, 0] 0) })
      ∧ (a ≠ s.own → s.isActive = true → member s.ackStations a = false → s.ackStationCount = 4 →
        exec (.ackRemote b x) s = .next { s with port := some (.response [1, 0] 0) })
      ∧ (a ≠ s.own → s.isActive = true → member s.ackStations a = true ∨ s.ackStationCount < 4 →
        exec (.ackRemote b x) s = .next
          { s with
            queue := enqueue s.queue (.ack [{ station := a, channels := x }])
            port := some (.response [0, 0] 0) })

/-- LEAVE: REFUSED while the record is not IDLE, NOT_READY while the node is not ACTIVE, and otherwise OK with a LEAVE
pending and the flag set (R166, R186). -/
def Obligations.LeaveIsJudgedByRoundAndState : Prop :=
  ∀ s : State, s.Answers → s.running = true →
    (s.round.state ≠ .idle → exec .leave s = .next { s with port := some (.response [4, 0] 0) })
      ∧ (s.round.state = .idle → s.isActive = false →
        exec .leave s = .next { s with port := some (.response [2, 0] 0) })
      ∧ (s.round.state = .idle → s.isActive = true → exec .leave s = .next
        { s with
          queue := if pendingKind s.queue .leave then s.queue else s.queue ++ [.leave]
          life := { s.life with leavePending := true }
          port := some (.response [0, 0] 0) })

/-! ## Encodings (06) -/

/-- Every valid frame reads back whole from the envelope and payload its sender puts on the wire (R110, R115, R119 to
R121). -/
def Obligations.FramesReadBackWhole : Prop :=
  ∀ (a : Station) (f : Frame), validFrame f = true → decodeRaw (encodeRaw a f) = some (a, f)

/-- Every frame the length field can describe reads back whole from its bits on the wire, stuffed, checked and marked
(R118, R119, R126, R137). That no command carries the bits of a reception is the model's choice (log 24). -/
def Obligations.WireBitsReadBackWhole : Prop :=
  ∀ w : RawFrame, w.payload.length ≤ 63 → reception ((wireBits w).drop 1) = .received w

/-! ## Invariants -/

/-- Every invariant holds after reset. -/
def Obligations.ResetMeetsTheInvariants : Prop := NodeInv State.reset

/-- The Peer Table stays true: P is the count R17 defines, the own entry mirrors the node, and every other entry's
deadlines are those of its presence state (R2, R4, R17). -/
def Obligations.EveryStepKeepsThePeerTableTrue : Prop :=
  ∀ s t : State, NodeInv s → step s = .next t → EligibleCounted t ∧ OwnEntryMirrors t ∧ PeersAge t

/-- The round record stays in step with its state, and a HALTED record goes with an asserted latch (R22, R45). -/
def Obligations.EveryStepKeepsTheRoundInStep : Prop :=
  ∀ s t : State, NodeInv s → step s = .next t → RoundInStep t ∧ HaltedHoldsLatch t

/-- The watch records, the local demand, the standing verdict and the sample deadlines stay in step (R58, R60, R76, R86).
-/
def Obligations.EveryStepKeepsTheSensorsInStep : Prop :=
  ∀ s t : State, NodeInv s → step s = .next t → WatchesInStep t ∧ SensorsSummed t ∧ SampleDeadlinesArmed t

/-- The targets stay current, the duties never fall below them, and the fan supervision stays in step (R93, R95, R96, R98,
R100 to R102, R109). -/
def Obligations.EveryStepKeepsTheFansInStep : Prop :=
  ∀ s t : State, NodeInv s → step s = .next t → TargetsCurrent t ∧ DutiesFollow t ∧ FansSupervised t

/-- The queue keeps one entry a kind, all of them admitted, the leave-pending flag stays true, the fault count reaches 8 only
where the node has left the link, and only what the receiver is taking is the node's own transmission (R135, R139, R141, R143,
R147, R154; log 11). -/
def Obligations.EveryStepKeepsTheQueueLegal : Prop :=
  ∀ s t : State, NodeInv s → step s = .next t → QueueInStep t ∧ LeaveFlagTrue t ∧ FaultsBounded t ∧ OwnFrameOnWire t

/-- Loading and the node state stay in step: blocks rest until an image is loaded, a good configuration is in force from
LISTENING onward, and each deadline of the node state is armed in its state alone (R154, R156, R158, R171 to R177). -/
def Obligations.EveryStepKeepsTheNodeStateInStep : Prop :=
  ∀ s t : State, NodeInv s → step s = .next t →
    RestsUntilLoaded t ∧ HeldByResetLine t ∧ ConfiguredWhileRunning t ∧ LoaderInStep t ∧ LifeDeadlinesInStep t
end

