-- ==== Sys2Proof/Laws/State.lean ====
section
/-! SUPPORT. What each plain update of the state leaves unchanged, field by field, and what a read after it gives. -/
namespace Sys2Proof.Machine

/-! ### setPeer -/

section
variable (s : State) (a : Station) (e : PeerEntry)

@[simp] theorem State.setPeer_now : (s.setPeer a e).now = s.now := rfl
@[simp] theorem State.setPeer_resetLine : (s.setPeer a e).resetLine = s.resetLine := rfl
@[simp] theorem State.setPeer_loader : (s.setPeer a e).loader = s.loader := rfl
@[simp] theorem State.setPeer_image : (s.setPeer a e).image = s.image := rfl
@[simp] theorem State.setPeer_life : (s.setPeer a e).life = s.life := rfl
@[simp] theorem State.setPeer_sampleDeadlines : (s.setPeer a e).sampleDeadlines = s.sampleDeadlines := rfl
@[simp] theorem State.setPeer_channels : (s.setPeer a e).channels = s.channels := rfl
@[simp] theorem State.setPeer_localDemand : (s.setPeer a e).localDemand = s.localDemand := rfl
@[simp] theorem State.setPeer_standing : (s.setPeer a e).standing = s.standing := rfl
@[simp] theorem State.setPeer_eligible : (s.setPeer a e).eligible = s.eligible := rfl
@[simp] theorem State.setPeer_round : (s.setPeer a e).round = s.round := rfl
@[simp] theorem State.setPeer_shutdownLatch : (s.setPeer a e).shutdownLatch = s.shutdownLatch := rfl
@[simp] theorem State.setPeer_fanA : (s.setPeer a e).fanA = s.fanA := rfl
@[simp] theorem State.setPeer_fanB : (s.setPeer a e).fanB = s.fanB := rfl
@[simp] theorem State.setPeer_queue : (s.setPeer a e).queue = s.queue := rfl
@[simp] theorem State.setPeer_link : (s.setPeer a e).link = s.link := rfl
@[simp] theorem State.setPeer_port : (s.setPeer a e).port = s.port := rfl
@[simp] theorem State.setPeer_choices : (s.setPeer a e).choices = s.choices := rfl
@[simp] theorem State.setPeer_pending : (s.setPeer a e).pending = s.pending := rfl
@[simp] theorem State.setPeer_cfg : (s.setPeer a e).cfg = s.cfg := rfl
@[simp] theorem State.setPeer_own : (s.setPeer a e).own = s.own := rfl
@[simp] theorem State.setPeer_running : (s.setPeer a e).running = s.running := rfl
@[simp] theorem State.setPeer_isActive : (s.setPeer a e).isActive = s.isActive := rfl
@[simp] theorem State.setPeer_nodeCritical : (s.setPeer a e).nodeCritical = s.nodeCritical := rfl

end

/-! ### setWatch -/

section
variable (s : State) (c : Channel) (w : WatchRecord)

@[simp] theorem State.setWatch_now : (s.setWatch c w).now = s.now := rfl
@[simp] theorem State.setWatch_resetLine : (s.setWatch c w).resetLine = s.resetLine := rfl
@[simp] theorem State.setWatch_loader : (s.setWatch c w).loader = s.loader := rfl
@[simp] theorem State.setWatch_image : (s.setWatch c w).image = s.image := rfl
@[simp] theorem State.setWatch_life : (s.setWatch c w).life = s.life := rfl
@[simp] theorem State.setWatch_sampleDeadlines : (s.setWatch c w).sampleDeadlines = s.sampleDeadlines := rfl
@[simp] theorem State.setWatch_localDemand : (s.setWatch c w).localDemand = s.localDemand := rfl
@[simp] theorem State.setWatch_standing : (s.setWatch c w).standing = s.standing := rfl
@[simp] theorem State.setWatch_peers : (s.setWatch c w).peers = s.peers := rfl
@[simp] theorem State.setWatch_eligible : (s.setWatch c w).eligible = s.eligible := rfl
@[simp] theorem State.setWatch_round : (s.setWatch c w).round = s.round := rfl
@[simp] theorem State.setWatch_shutdownLatch : (s.setWatch c w).shutdownLatch = s.shutdownLatch := rfl
@[simp] theorem State.setWatch_fanA : (s.setWatch c w).fanA = s.fanA := rfl
@[simp] theorem State.setWatch_fanB : (s.setWatch c w).fanB = s.fanB := rfl
@[simp] theorem State.setWatch_queue : (s.setWatch c w).queue = s.queue := rfl
@[simp] theorem State.setWatch_link : (s.setWatch c w).link = s.link := rfl
@[simp] theorem State.setWatch_port : (s.setWatch c w).port = s.port := rfl
@[simp] theorem State.setWatch_choices : (s.setWatch c w).choices = s.choices := rfl
@[simp] theorem State.setWatch_pending : (s.setWatch c w).pending = s.pending := rfl
@[simp] theorem State.setWatch_cfg : (s.setWatch c w).cfg = s.cfg := rfl
@[simp] theorem State.setWatch_own : (s.setWatch c w).own = s.own := rfl
@[simp] theorem State.setWatch_running : (s.setWatch c w).running = s.running := rfl
@[simp] theorem State.setWatch_isActive : (s.setWatch c w).isActive = s.isActive := rfl

end

/-! ### setFan -/

section
variable (s : State) (f : FanId) (r : FanRecord)

@[simp] theorem State.setFan_now : (s.setFan f r).now = s.now := by cases f <;> rfl
@[simp] theorem State.setFan_resetLine : (s.setFan f r).resetLine = s.resetLine := by cases f <;> rfl
@[simp] theorem State.setFan_loader : (s.setFan f r).loader = s.loader := by cases f <;> rfl
@[simp] theorem State.setFan_image : (s.setFan f r).image = s.image := by cases f <;> rfl
@[simp] theorem State.setFan_life : (s.setFan f r).life = s.life := by cases f <;> rfl
@[simp] theorem State.setFan_sampleDeadlines : (s.setFan f r).sampleDeadlines = s.sampleDeadlines := by cases f <;> rfl
@[simp] theorem State.setFan_channels : (s.setFan f r).channels = s.channels := by cases f <;> rfl
@[simp] theorem State.setFan_localDemand : (s.setFan f r).localDemand = s.localDemand := by cases f <;> rfl
@[simp] theorem State.setFan_standing : (s.setFan f r).standing = s.standing := by cases f <;> rfl
@[simp] theorem State.setFan_peers : (s.setFan f r).peers = s.peers := by cases f <;> rfl
@[simp] theorem State.setFan_eligible : (s.setFan f r).eligible = s.eligible := by cases f <;> rfl
@[simp] theorem State.setFan_round : (s.setFan f r).round = s.round := by cases f <;> rfl
@[simp] theorem State.setFan_shutdownLatch : (s.setFan f r).shutdownLatch = s.shutdownLatch := by cases f <;> rfl
@[simp] theorem State.setFan_queue : (s.setFan f r).queue = s.queue := by cases f <;> rfl
@[simp] theorem State.setFan_link : (s.setFan f r).link = s.link := by cases f <;> rfl
@[simp] theorem State.setFan_port : (s.setFan f r).port = s.port := by cases f <;> rfl
@[simp] theorem State.setFan_choices : (s.setFan f r).choices = s.choices := by cases f <;> rfl
@[simp] theorem State.setFan_pending : (s.setFan f r).pending = s.pending := by cases f <;> rfl
@[simp] theorem State.setFan_cfg : (s.setFan f r).cfg = s.cfg := by cases f <;> rfl
@[simp] theorem State.setFan_own : (s.setFan f r).own = s.own := by cases f <;> rfl
@[simp] theorem State.setFan_running : (s.setFan f r).running = s.running := by cases f <;> rfl
@[simp] theorem State.setFan_isActive : (s.setFan f r).isActive = s.isActive := by cases f <;> rfl
@[simp] theorem State.setFan_nodeCritical : (s.setFan f r).nodeCritical = s.nodeCritical := by cases f <;> rfl

end

/-! ### updateOwn -/

section
variable (s : State) (g : PeerEntry → PeerEntry)

@[simp] theorem State.updateOwn_now : (s.updateOwn g).now = s.now := rfl
@[simp] theorem State.updateOwn_resetLine : (s.updateOwn g).resetLine = s.resetLine := rfl
@[simp] theorem State.updateOwn_loader : (s.updateOwn g).loader = s.loader := rfl
@[simp] theorem State.updateOwn_image : (s.updateOwn g).image = s.image := rfl
@[simp] theorem State.updateOwn_life : (s.updateOwn g).life = s.life := rfl
@[simp] theorem State.updateOwn_sampleDeadlines : (s.updateOwn g).sampleDeadlines = s.sampleDeadlines := rfl
@[simp] theorem State.updateOwn_channels : (s.updateOwn g).channels = s.channels := rfl
@[simp] theorem State.updateOwn_localDemand : (s.updateOwn g).localDemand = s.localDemand := rfl
@[simp] theorem State.updateOwn_standing : (s.updateOwn g).standing = s.standing := rfl
@[simp] theorem State.updateOwn_eligible : (s.updateOwn g).eligible = s.eligible := rfl
@[simp] theorem State.updateOwn_round : (s.updateOwn g).round = s.round := rfl
@[simp] theorem State.updateOwn_shutdownLatch : (s.updateOwn g).shutdownLatch = s.shutdownLatch := rfl
@[simp] theorem State.updateOwn_fanA : (s.updateOwn g).fanA = s.fanA := rfl
@[simp] theorem State.updateOwn_fanB : (s.updateOwn g).fanB = s.fanB := rfl
@[simp] theorem State.updateOwn_queue : (s.updateOwn g).queue = s.queue := rfl
@[simp] theorem State.updateOwn_link : (s.updateOwn g).link = s.link := rfl
@[simp] theorem State.updateOwn_port : (s.updateOwn g).port = s.port := rfl
@[simp] theorem State.updateOwn_choices : (s.updateOwn g).choices = s.choices := rfl
@[simp] theorem State.updateOwn_pending : (s.updateOwn g).pending = s.pending := rfl
@[simp] theorem State.updateOwn_cfg : (s.updateOwn g).cfg = s.cfg := rfl
@[simp] theorem State.updateOwn_own : (s.updateOwn g).own = s.own := rfl
@[simp] theorem State.updateOwn_running : (s.updateOwn g).running = s.running := rfl
@[simp] theorem State.updateOwn_isActive : (s.updateOwn g).isActive = s.isActive := rfl
@[simp] theorem State.updateOwn_nodeCritical : (s.updateOwn g).nodeCritical = s.nodeCritical := rfl

end

/-! ### recomputeTargets -/

section
variable (s : State)

@[simp] theorem State.recomputeTargets_now : s.recomputeTargets.now = s.now := rfl
@[simp] theorem State.recomputeTargets_resetLine : s.recomputeTargets.resetLine = s.resetLine := rfl
@[simp] theorem State.recomputeTargets_loader : s.recomputeTargets.loader = s.loader := rfl
@[simp] theorem State.recomputeTargets_image : s.recomputeTargets.image = s.image := rfl
@[simp] theorem State.recomputeTargets_life : s.recomputeTargets.life = s.life := rfl
@[simp] theorem State.recomputeTargets_sampleDeadlines : s.recomputeTargets.sampleDeadlines = s.sampleDeadlines := rfl
@[simp] theorem State.recomputeTargets_channels : s.recomputeTargets.channels = s.channels := rfl
@[simp] theorem State.recomputeTargets_localDemand : s.recomputeTargets.localDemand = s.localDemand := rfl
@[simp] theorem State.recomputeTargets_standing : s.recomputeTargets.standing = s.standing := rfl
@[simp] theorem State.recomputeTargets_peers : s.recomputeTargets.peers = s.peers := rfl
@[simp] theorem State.recomputeTargets_eligible : s.recomputeTargets.eligible = s.eligible := rfl
@[simp] theorem State.recomputeTargets_round : s.recomputeTargets.round = s.round := rfl
@[simp] theorem State.recomputeTargets_shutdownLatch : s.recomputeTargets.shutdownLatch = s.shutdownLatch := rfl
@[simp] theorem State.recomputeTargets_queue : s.recomputeTargets.queue = s.queue := rfl
@[simp] theorem State.recomputeTargets_link : s.recomputeTargets.link = s.link := rfl
@[simp] theorem State.recomputeTargets_port : s.recomputeTargets.port = s.port := rfl
@[simp] theorem State.recomputeTargets_choices : s.recomputeTargets.choices = s.choices := rfl
@[simp] theorem State.recomputeTargets_pending : s.recomputeTargets.pending = s.pending := rfl
@[simp] theorem State.recomputeTargets_cfg : s.recomputeTargets.cfg = s.cfg := rfl
@[simp] theorem State.recomputeTargets_own : s.recomputeTargets.own = s.own := rfl
@[simp] theorem State.recomputeTargets_running : s.recomputeTargets.running = s.running := rfl
@[simp] theorem State.recomputeTargets_isActive : s.recomputeTargets.isActive = s.isActive := rfl
@[simp] theorem State.recomputeTargets_nodeCritical : s.recomputeTargets.nodeCritical = s.nodeCritical := rfl

end

/-! ### purge -/

section
variable (s : State) (p : Pending → Bool)

@[simp] theorem State.purge_now : (s.purge p).now = s.now := rfl
@[simp] theorem State.purge_resetLine : (s.purge p).resetLine = s.resetLine := rfl
@[simp] theorem State.purge_loader : (s.purge p).loader = s.loader := rfl
@[simp] theorem State.purge_image : (s.purge p).image = s.image := rfl
@[simp] theorem State.purge_life : (s.purge p).life = s.life := rfl
@[simp] theorem State.purge_sampleDeadlines : (s.purge p).sampleDeadlines = s.sampleDeadlines := rfl
@[simp] theorem State.purge_channels : (s.purge p).channels = s.channels := rfl
@[simp] theorem State.purge_localDemand : (s.purge p).localDemand = s.localDemand := rfl
@[simp] theorem State.purge_standing : (s.purge p).standing = s.standing := rfl
@[simp] theorem State.purge_peers : (s.purge p).peers = s.peers := rfl
@[simp] theorem State.purge_eligible : (s.purge p).eligible = s.eligible := rfl
@[simp] theorem State.purge_round : (s.purge p).round = s.round := rfl
@[simp] theorem State.purge_shutdownLatch : (s.purge p).shutdownLatch = s.shutdownLatch := rfl
@[simp] theorem State.purge_fanA : (s.purge p).fanA = s.fanA := rfl
@[simp] theorem State.purge_fanB : (s.purge p).fanB = s.fanB := rfl
@[simp] theorem State.purge_link : (s.purge p).link = s.link := rfl
@[simp] theorem State.purge_port : (s.purge p).port = s.port := rfl
@[simp] theorem State.purge_choices : (s.purge p).choices = s.choices := rfl
@[simp] theorem State.purge_pending : (s.purge p).pending = s.pending := rfl
@[simp] theorem State.purge_cfg : (s.purge p).cfg = s.cfg := rfl
@[simp] theorem State.purge_own : (s.purge p).own = s.own := rfl
@[simp] theorem State.purge_running : (s.purge p).running = s.running := rfl
@[simp] theorem State.purge_isActive : (s.purge p).isActive = s.isActive := rfl
@[simp] theorem State.purge_nodeCritical : (s.purge p).nodeCritical = s.nodeCritical := rfl

end

/-! ### offer -/

section
variable (s : State) (f : Pending)

@[simp] theorem State.offer_now : (s.offer f).now = s.now := by unfold State.offer; split <;> rfl
@[simp] theorem State.offer_resetLine : (s.offer f).resetLine = s.resetLine := by unfold State.offer; split <;> rfl
@[simp] theorem State.offer_loader : (s.offer f).loader = s.loader := by unfold State.offer; split <;> rfl
@[simp] theorem State.offer_image : (s.offer f).image = s.image := by unfold State.offer; split <;> rfl
@[simp] theorem State.offer_life : (s.offer f).life = s.life := by unfold State.offer; split <;> rfl
@[simp] theorem State.offer_sampleDeadlines : (s.offer f).sampleDeadlines = s.sampleDeadlines := by unfold State.offer; split <;> rfl
@[simp] theorem State.offer_channels : (s.offer f).channels = s.channels := by unfold State.offer; split <;> rfl
@[simp] theorem State.offer_localDemand : (s.offer f).localDemand = s.localDemand := by unfold State.offer; split <;> rfl
@[simp] theorem State.offer_standing : (s.offer f).standing = s.standing := by unfold State.offer; split <;> rfl
@[simp] theorem State.offer_peers : (s.offer f).peers = s.peers := by unfold State.offer; split <;> rfl
@[simp] theorem State.offer_eligible : (s.offer f).eligible = s.eligible := by unfold State.offer; split <;> rfl
@[simp] theorem State.offer_round : (s.offer f).round = s.round := by unfold State.offer; split <;> rfl
@[simp] theorem State.offer_shutdownLatch : (s.offer f).shutdownLatch = s.shutdownLatch := by unfold State.offer; split <;> rfl
@[simp] theorem State.offer_fanA : (s.offer f).fanA = s.fanA := by unfold State.offer; split <;> rfl
@[simp] theorem State.offer_fanB : (s.offer f).fanB = s.fanB := by unfold State.offer; split <;> rfl
@[simp] theorem State.offer_link : (s.offer f).link = s.link := by unfold State.offer; split <;> rfl
@[simp] theorem State.offer_port : (s.offer f).port = s.port := by unfold State.offer; split <;> rfl
@[simp] theorem State.offer_choices : (s.offer f).choices = s.choices := by unfold State.offer; split <;> rfl
@[simp] theorem State.offer_pending : (s.offer f).pending = s.pending := by unfold State.offer; split <;> rfl
@[simp] theorem State.offer_cfg : (s.offer f).cfg = s.cfg := by unfold State.offer; split <;> rfl
@[simp] theorem State.offer_own : (s.offer f).own = s.own := by unfold State.offer; split <;> rfl
@[simp] theorem State.offer_running : (s.offer f).running = s.running := by unfold State.offer; split <;> rfl
@[simp] theorem State.offer_isActive : (s.offer f).isActive = s.isActive := by unfold State.offer; split <;> rfl
@[simp] theorem State.offer_nodeCritical : (s.offer f).nodeCritical = s.nodeCritical := by unfold State.offer; split <;> rfl

end

/-! ### storeRound -/

section
variable (s : State) (r : RoundRecord)

@[simp] theorem State.storeRound_now : (s.storeRound r).now = s.now := by unfold State.storeRound; split <;> rfl
@[simp] theorem State.storeRound_resetLine : (s.storeRound r).resetLine = s.resetLine := by unfold State.storeRound; split <;> rfl
@[simp] theorem State.storeRound_loader : (s.storeRound r).loader = s.loader := by unfold State.storeRound; split <;> rfl
@[simp] theorem State.storeRound_image : (s.storeRound r).image = s.image := by unfold State.storeRound; split <;> rfl
@[simp] theorem State.storeRound_life : (s.storeRound r).life = s.life := by unfold State.storeRound; split <;> rfl
@[simp] theorem State.storeRound_sampleDeadlines : (s.storeRound r).sampleDeadlines = s.sampleDeadlines := by unfold State.storeRound; split <;> rfl
@[simp] theorem State.storeRound_channels : (s.storeRound r).channels = s.channels := by unfold State.storeRound; split <;> rfl
@[simp] theorem State.storeRound_localDemand : (s.storeRound r).localDemand = s.localDemand := by unfold State.storeRound; split <;> rfl
@[simp] theorem State.storeRound_standing : (s.storeRound r).standing = s.standing := by unfold State.storeRound; split <;> rfl
@[simp] theorem State.storeRound_peers : (s.storeRound r).peers = s.peers := by unfold State.storeRound; split <;> rfl
@[simp] theorem State.storeRound_eligible : (s.storeRound r).eligible = s.eligible := by unfold State.storeRound; split <;> rfl
@[simp] theorem State.storeRound_shutdownLatch : (s.storeRound r).shutdownLatch = s.shutdownLatch := by unfold State.storeRound; split <;> rfl
@[simp] theorem State.storeRound_queue : (s.storeRound r).queue = s.queue := by unfold State.storeRound; split <;> rfl
@[simp] theorem State.storeRound_link : (s.storeRound r).link = s.link := by unfold State.storeRound; split <;> rfl
@[simp] theorem State.storeRound_port : (s.storeRound r).port = s.port := by unfold State.storeRound; split <;> rfl
@[simp] theorem State.storeRound_choices : (s.storeRound r).choices = s.choices := by unfold State.storeRound; split <;> rfl
@[simp] theorem State.storeRound_pending : (s.storeRound r).pending = s.pending := by unfold State.storeRound; split <;> rfl
@[simp] theorem State.storeRound_cfg : (s.storeRound r).cfg = s.cfg := by unfold State.storeRound; split <;> rfl
@[simp] theorem State.storeRound_own : (s.storeRound r).own = s.own := by unfold State.storeRound; split <;> rfl
@[simp] theorem State.storeRound_running : (s.storeRound r).running = s.running := by unfold State.storeRound; split <;> rfl
@[simp] theorem State.storeRound_isActive : (s.storeRound r).isActive = s.isActive := by unfold State.storeRound; split <;> rfl
@[simp] theorem State.storeRound_nodeCritical : (s.storeRound r).nodeCritical = s.nodeCritical := by unfold State.storeRound; split <;> rfl

end

/-! ### toWait -/

section
variable (s : State) (b : Bool)

@[simp] theorem State.toWait_now : (s.toWait b).now = s.now := rfl
@[simp] theorem State.toWait_resetLine : (s.toWait b).resetLine = s.resetLine := rfl
@[simp] theorem State.toWait_loader : (s.toWait b).loader = s.loader := rfl
@[simp] theorem State.toWait_image : (s.toWait b).image = s.image := rfl
@[simp] theorem State.toWait_life : (s.toWait b).life = s.life := rfl
@[simp] theorem State.toWait_sampleDeadlines : (s.toWait b).sampleDeadlines = s.sampleDeadlines := rfl
@[simp] theorem State.toWait_channels : (s.toWait b).channels = s.channels := rfl
@[simp] theorem State.toWait_localDemand : (s.toWait b).localDemand = s.localDemand := rfl
@[simp] theorem State.toWait_standing : (s.toWait b).standing = s.standing := rfl
@[simp] theorem State.toWait_peers : (s.toWait b).peers = s.peers := rfl
@[simp] theorem State.toWait_eligible : (s.toWait b).eligible = s.eligible := rfl
@[simp] theorem State.toWait_round : (s.toWait b).round = s.round := rfl
@[simp] theorem State.toWait_shutdownLatch : (s.toWait b).shutdownLatch = s.shutdownLatch := rfl
@[simp] theorem State.toWait_fanA : (s.toWait b).fanA = s.fanA := rfl
@[simp] theorem State.toWait_fanB : (s.toWait b).fanB = s.fanB := rfl
@[simp] theorem State.toWait_queue : (s.toWait b).queue = s.queue := rfl
@[simp] theorem State.toWait_port : (s.toWait b).port = s.port := rfl
@[simp] theorem State.toWait_choices : (s.toWait b).choices = s.choices := rfl
@[simp] theorem State.toWait_pending : (s.toWait b).pending = s.pending := rfl
@[simp] theorem State.toWait_cfg : (s.toWait b).cfg = s.cfg := rfl
@[simp] theorem State.toWait_own : (s.toWait b).own = s.own := rfl
@[simp] theorem State.toWait_running : (s.toWait b).running = s.running := rfl
@[simp] theorem State.toWait_isActive : (s.toWait b).isActive = s.isActive := rfl
@[simp] theorem State.toWait_nodeCritical : (s.toWait b).nodeCritical = s.nodeCritical := rfl

end

/-! ### armSample -/

section
variable (s : State) (c : Channel)

@[simp] theorem State.armSample_now : (s.armSample c).now = s.now := rfl
@[simp] theorem State.armSample_resetLine : (s.armSample c).resetLine = s.resetLine := rfl
@[simp] theorem State.armSample_loader : (s.armSample c).loader = s.loader := rfl
@[simp] theorem State.armSample_image : (s.armSample c).image = s.image := rfl
@[simp] theorem State.armSample_life : (s.armSample c).life = s.life := rfl
@[simp] theorem State.armSample_channels : (s.armSample c).channels = s.channels := rfl
@[simp] theorem State.armSample_localDemand : (s.armSample c).localDemand = s.localDemand := rfl
@[simp] theorem State.armSample_standing : (s.armSample c).standing = s.standing := rfl
@[simp] theorem State.armSample_peers : (s.armSample c).peers = s.peers := rfl
@[simp] theorem State.armSample_eligible : (s.armSample c).eligible = s.eligible := rfl
@[simp] theorem State.armSample_round : (s.armSample c).round = s.round := rfl
@[simp] theorem State.armSample_shutdownLatch : (s.armSample c).shutdownLatch = s.shutdownLatch := rfl
@[simp] theorem State.armSample_fanA : (s.armSample c).fanA = s.fanA := rfl
@[simp] theorem State.armSample_fanB : (s.armSample c).fanB = s.fanB := rfl
@[simp] theorem State.armSample_queue : (s.armSample c).queue = s.queue := rfl
@[simp] theorem State.armSample_link : (s.armSample c).link = s.link := rfl
@[simp] theorem State.armSample_port : (s.armSample c).port = s.port := rfl
@[simp] theorem State.armSample_choices : (s.armSample c).choices = s.choices := rfl
@[simp] theorem State.armSample_pending : (s.armSample c).pending = s.pending := rfl
@[simp] theorem State.armSample_cfg : (s.armSample c).cfg = s.cfg := rfl
@[simp] theorem State.armSample_own : (s.armSample c).own = s.own := rfl
@[simp] theorem State.armSample_running : (s.armSample c).running = s.running := rfl
@[simp] theorem State.armSample_isActive : (s.armSample c).isActive = s.isActive := rfl
@[simp] theorem State.armSample_nodeCritical : (s.armSample c).nodeCritical = s.nodeCritical := rfl

end

/-! ### respond -/

section
variable (s : State) (r : DiagResult) (l : List Byte)

@[simp] theorem State.respond_now : (s.respond r l).now = s.now := rfl
@[simp] theorem State.respond_resetLine : (s.respond r l).resetLine = s.resetLine := rfl
@[simp] theorem State.respond_loader : (s.respond r l).loader = s.loader := rfl
@[simp] theorem State.respond_image : (s.respond r l).image = s.image := rfl
@[simp] theorem State.respond_life : (s.respond r l).life = s.life := rfl
@[simp] theorem State.respond_sampleDeadlines : (s.respond r l).sampleDeadlines = s.sampleDeadlines := rfl
@[simp] theorem State.respond_channels : (s.respond r l).channels = s.channels := rfl
@[simp] theorem State.respond_localDemand : (s.respond r l).localDemand = s.localDemand := rfl
@[simp] theorem State.respond_standing : (s.respond r l).standing = s.standing := rfl
@[simp] theorem State.respond_peers : (s.respond r l).peers = s.peers := rfl
@[simp] theorem State.respond_eligible : (s.respond r l).eligible = s.eligible := rfl
@[simp] theorem State.respond_round : (s.respond r l).round = s.round := rfl
@[simp] theorem State.respond_shutdownLatch : (s.respond r l).shutdownLatch = s.shutdownLatch := rfl
@[simp] theorem State.respond_fanA : (s.respond r l).fanA = s.fanA := rfl
@[simp] theorem State.respond_fanB : (s.respond r l).fanB = s.fanB := rfl
@[simp] theorem State.respond_queue : (s.respond r l).queue = s.queue := rfl
@[simp] theorem State.respond_link : (s.respond r l).link = s.link := rfl
@[simp] theorem State.respond_choices : (s.respond r l).choices = s.choices := rfl
@[simp] theorem State.respond_pending : (s.respond r l).pending = s.pending := rfl
@[simp] theorem State.respond_cfg : (s.respond r l).cfg = s.cfg := rfl
@[simp] theorem State.respond_own : (s.respond r l).own = s.own := rfl
@[simp] theorem State.respond_running : (s.respond r l).running = s.running := rfl
@[simp] theorem State.respond_isActive : (s.respond r l).isActive = s.isActive := rfl
@[simp] theorem State.respond_nodeCritical : (s.respond r l).nodeCritical = s.nodeCritical := rfl

end

/-! ### Reads after writes -/

@[simp] theorem State.peer_setPeer_self (s : State) (a : Station) (e : PeerEntry) : (s.setPeer a e).peer a = e := by
  simp [State.peer, State.setPeer]

theorem State.peer_setPeer_ne (s : State) {a b : Station} (h : b ≠ a) (e : PeerEntry) :
    (s.setPeer a e).peer b = s.peer b := by
  have hne : a.val ≠ b.val := fun hv => h (Fin.ext hv.symm)
  simp [State.peer, State.setPeer, hne]

@[simp] theorem State.watch_setWatch_self (s : State) (c : Channel) (w : WatchRecord) : (s.setWatch c w).watch c = w := by
  simp [State.watch, State.setWatch]

theorem State.watch_setWatch_ne (s : State) {c d : Channel} (h : d ≠ c) (w : WatchRecord) :
    (s.setWatch c w).watch d = s.watch d := by
  have hne : c.val ≠ d.val := fun hv => h (Fin.ext hv.symm)
  simp [State.watch, State.setWatch, hne]

@[simp] theorem State.fan_setFan_self (s : State) (f : FanId) (r : FanRecord) : (s.setFan f r).fan f = r := by
  cases f <;> rfl

@[simp] theorem State.fan_setFan_other (s : State) (f : FanId) (r : FanRecord) :
    (s.setFan f r).fan (otherFan f) = s.fan (otherFan f) := by cases f <;> rfl

@[simp] theorem State.recomputeTargets_fan (s : State) (f : FanId) : s.recomputeTargets.fan f = s.retarget f := by
  cases f <;> rfl

@[simp] theorem State.purge_queue (s : State) (p : Pending → Bool) : (s.purge p).queue = s.queue.filter fun f => !p f :=
  rfl

theorem State.offer_queue (s : State) (f : Pending) :
    (s.offer f).queue = if s.life.nodeState.admits f.kind then enqueue s.queue f else s.queue := by
  unfold State.offer; split <;> rfl

@[simp] theorem State.storeRound_round (s : State) (r : RoundRecord) : (s.storeRound r).round = r := by
  unfold State.storeRound; split <;> rfl

@[simp] theorem State.updateOwn_peer_own (s : State) (g : PeerEntry → PeerEntry) :
    (s.updateOwn g).peer s.own = g (s.peer s.own) := State.peer_setPeer_self s _ _

theorem State.updateOwn_peer_ne (s : State) (g : PeerEntry → PeerEntry) {a : Station} (h : a ≠ s.own) :
    (s.updateOwn g).peer a = s.peer a := State.peer_setPeer_ne s h _

end Sys2Proof.Machine
end

