-- ==== Sys2Proof/Laws/Airflow.lean ====
section
/-! SUPPORT. What a recomputation of targets, a fall step and a closed window can do to a fan, and what a target depends on
(05). -/
namespace Sys2Proof.Machine

/-! ## One fan -/

section
variable (now : Millis) (floor : Nat) (t : Byte) (r : FanRecord)

@[simp] theorem FanRecord.follow_target : (r.follow now floor t).target = t := by
  unfold FanRecord.follow; split <;> [rfl; (split <;> rfl)]

@[simp] theorem FanRecord.follow_reason : (r.follow now floor t).reason = r.reason := by
  unfold FanRecord.follow; split <;> [rfl; (split <;> rfl)]

@[simp] theorem FanRecord.follow_condition : (r.follow now floor t).condition = r.condition := by
  unfold FanRecord.follow; split <;> [rfl; (split <;> rfl)]

@[simp] theorem FanRecord.follow_windowDeadline : (r.follow now floor t).windowDeadline = r.windowDeadline := by
  unfold FanRecord.follow; split <;> [rfl; (split <;> rfl)]

@[simp] theorem FanRecord.follow_edgeSeen : (r.follow now floor t).edgeSeen = r.edgeSeen := by
  unfold FanRecord.follow; split <;> [rfl; (split <;> rfl)]

@[simp] theorem FanRecord.follow_stallCount : (r.follow now floor t).stallCount = r.stallCount := by
  unfold FanRecord.follow; split <;> [rfl; (split <;> rfl)]

@[simp] theorem FanRecord.follow_goodCount : (r.follow now floor t).goodCount = r.goodCount := by
  unfold FanRecord.follow; split <;> [rfl; (split <;> rfl)]

/-- A duty that follows a changed target is never below it, falls only by steps, and keeps a qualifying window's floor. -/
theorem FanRecord.Follows.follow {floor : Nat} {r : FanRecord} (h : r.Follows floor) :
    (r.follow now floor t).Follows floor := by
  obtain ⟨h₁, h₂, h₃⟩ := h
  unfold FanRecord.follow
  split
  · rename_i hlt
    refine ⟨Nat.le_refl _, ?_, ?_⟩
    · simp [FanRecord.withDuty]
    · simp only [FanRecord.withDuty, Bool.and_eq_true, Bool.not_eq_true', decide_eq_false_iff_not]
      intro hq
      omega
  · rename_i hge
    split
    · rename_i heq
      refine ⟨by simp [heq], by simp [heq], h₃⟩
    · rename_i hne
      have hne' : t.toNat ≠ r.duty.toNat := fun hv => hne (BitVec.eq_of_toNat_eq hv)
      refine ⟨by simp only; omega, ?_, h₃⟩
      simp only [Option.isSome_some, true_iff]
      omega

/-- A fall step keeps the duty at or above the target, and the deadline armed exactly while it is above (R96). -/
theorem FanRecord.Follows.stepDown {floor : Nat} {r : FanRecord} (step : Nat) (h : r.Follows floor) :
    (r.stepDown now step floor).Follows floor := by
  obtain ⟨h₁, h₂, h₃⟩ := h
  have hd : r.duty.toNat < 256 := r.duty.isLt
  unfold FanRecord.stepDown
  have hd' : (BitVec.ofNat 8 (r.duty.toNat - min step (r.duty.toNat - r.target.toNat))).toNat
      = r.duty.toNat - min step (r.duty.toNat - r.target.toNat) := by
    simp only [BitVec.toNat_ofNat]
    apply Nat.mod_eq_of_lt
    omega
  by_cases hz : min step (r.duty.toNat - r.target.toNat) = 0
  · simp only [hz, Nat.sub_zero, BitVec.ofNat_toNat, BitVec.setWidth_eq, if_true]
    refine ⟨h₁, ?_, h₃⟩
    simp only
    split <;> simp_all
  · simp only [hz, if_false, FanRecord.withDuty]
    refine ⟨by simp only [hd']; omega, ?_, ?_⟩
    · simp only [hd']
      split <;> simp_all
    · simp only [Bool.and_eq_true, Bool.not_eq_true', decide_eq_false_iff_not]
      omega

/-- A closed window leaves target and duty alone (R101, R102). -/
theorem FanRecord.judgeWindow_drive : (r.judgeWindow.target, r.judgeWindow.duty, r.judgeWindow.fallDeadline,
    r.judgeWindow.windowDeadline, r.judgeWindow.edgeSeen, r.judgeWindow.windowQualifies, r.judgeWindow.reason)
    = (r.target, r.duty, r.fallDeadline, r.windowDeadline, r.edgeSeen, r.windowQualifies, r.reason) := by
  unfold FanRecord.judgeWindow
  repeat' split
  all_goals rfl

/-- A closed window keeps the counts in step (R101, R102). -/
theorem FanRecord.CountsInStep.judgeWindow {r : FanRecord} (h : r.CountsInStep) : r.judgeWindow.CountsInStep := by
  obtain ⟨h₁, h₂, h₃, h₄⟩ := h
  unfold FanRecord.judgeWindow
  repeat' split
  all_goals simp_all [FanRecord.CountsInStep, Config.persistence]

end

/-! ## Both fans -/

section
variable (s : State) (f : FanId)

@[simp] theorem State.retarget_target : (s.retarget f).target = s.targetNow f := by
  unfold State.retarget; dsimp only; split <;> simp_all

@[simp] theorem State.retarget_reason : (s.retarget f).reason = s.reasonNow f := by
  unfold State.retarget; dsimp only; split <;> simp

@[simp] theorem State.retarget_condition : (s.retarget f).condition = (s.fan f).condition := by
  unfold State.retarget; dsimp only; split <;> simp

@[simp] theorem State.retarget_windowDeadline : (s.retarget f).windowDeadline = (s.fan f).windowDeadline := by
  unfold State.retarget; dsimp only; split <;> simp

@[simp] theorem State.retarget_edgeSeen : (s.retarget f).edgeSeen = (s.fan f).edgeSeen := by
  unfold State.retarget; dsimp only; split <;> simp

@[simp] theorem State.retarget_stallCount : (s.retarget f).stallCount = (s.fan f).stallCount := by
  unfold State.retarget; dsimp only; split <;> simp

@[simp] theorem State.retarget_goodCount : (s.retarget f).goodCount = (s.fan f).goodCount := by
  unfold State.retarget; dsimp only; split <;> simp

theorem State.retarget_follows {s : State} {f : FanId} (h : (s.fan f).Follows s.cfg.stallFloor) :
    (s.retarget f).Follows s.cfg.stallFloor := by
  unfold State.retarget
  dsimp only
  split
  · exact h
  · exact FanRecord.Follows.follow _ _ h

@[simp] theorem State.recomputeTargets_fanFailed : s.recomputeTargets.fanFailed f = s.fanFailed f := by
  unfold State.fanFailed; rw [State.recomputeTargets_fan, State.retarget_condition]

end

/-! ## What a target depends on -/

/-- The inputs of the targets (R19, R91 to R94): equal inputs give equal targets and reasons. -/
structure State.SameDrive (s t : State) : Prop where
  image : t.image = s.image
  running : t.running = s.running
  decided : (t.round.state = .committed ∨ t.round.state = .halted) ↔ (s.round.state = .committed ∨ s.round.state = .halted)
  latch : t.shutdownLatch = s.shutdownLatch
  failed : ∀ f, t.fanFailed f = s.fanFailed f
  demand : ∀ a, t.effectiveDemand a = s.effectiveDemand a

section
variable {s t : State} (h : s.SameDrive t)
include h

theorem State.SameDrive.largest (f : FanId) : t.largestDemand f = s.largestDemand f := by
  have hc : t.fanCfg f = s.fanCfg f := by cases f <;> simp [State.fanCfg, State.cfg, h.image]
  unfold State.largestDemand State.weightedDemand
  simp only [h.demand, hc]

theorem State.SameDrive.forcing (f : FanId) : t.forcing f = s.forcing f := by
  have hd := h.decided
  unfold State.forcing
  rw [h.running, h.latch, h.failed]
  simp only [Bool.or_eq_true, beq_iff_eq, hd]

theorem State.SameDrive.targetNow (f : FanId) : t.targetNow f = s.targetNow f := by
  have hc : t.fanCfg f = s.fanCfg f := by cases f <;> simp [State.fanCfg, State.cfg, h.image]
  unfold State.targetNow State.unforcedTarget
  rw [h.forcing, h.largest, hc]

theorem State.SameDrive.reasonNow (f : FanId) : t.reasonNow f = s.reasonNow f := by
  have hc : t.fanCfg f = s.fanCfg f := by cases f <;> simp [State.fanCfg, State.cfg, h.image]
  have hl := h.largest f
  have hw : ∀ a, t.weightedDemand f a = s.weightedDemand f a := fun a => by
    unfold State.weightedDemand; rw [hc, h.demand]
  unfold State.reasonNow State.unforcedReason
  simp only [h.forcing, hl, hc, hw]

end

/-- Whatever stood before, a recomputation leaves both targets current (R93). -/
theorem State.recomputeTargets_current (s : State) : TargetsCurrent s.recomputeTargets := by
  have h : s.SameDrive s.recomputeTargets :=
    ⟨rfl, rfl, Iff.rfl, rfl, State.recomputeTargets_fanFailed s, fun _ => rfl⟩
  intro f
  rw [h.targetNow, h.reasonNow]
  simp

/-- Equal inputs and equal fans: the targets stay current. -/
theorem TargetsCurrent.same {s t : State} (hs : TargetsCurrent s) (h : s.SameDrive t)
    (hf : ∀ f, (t.fan f).target = (s.fan f).target ∧ (t.fan f).reason = (s.fan f).reason) : TargetsCurrent t := by
  intro f
  rw [h.targetNow, h.reasonNow, (hf f).1, (hf f).2]
  exact hs f

/-- A decided round forces both targets (R94). -/
theorem State.targetNow_decided (s : State) (f : FanId) (h : s.round.state = .committed ∨ s.round.state = .halted) :
    s.targetNow f = 255 := by
  unfold State.targetNow State.forcing
  cases hr : s.running
  · rfl
  · rcases h with h | h <;> simp [h]

/-- Nothing runs the fans below full speed in LOADING and CONFIG_FAULT (R94). -/
theorem State.targetNow_stopped (s : State) (f : FanId) (h : s.running = false) :
    s.targetNow f = 255 ∧ s.reasonNow f = .forced .nodeState := by
  unfold State.targetNow State.reasonNow State.forcing
  simp [h]

/-! ## The largest demand (R92) -/

theorem foldl_max_ge {α : Type} (g : α → Nat) (l : List α) (m : Nat) : m ≤ l.foldl (fun n a => max n (g a)) m := by
  induction l generalizing m with
  | nil => exact Nat.le_refl m
  | cons a l ih => exact Nat.le_trans (Nat.le_max_left _ _) (ih _)

theorem foldl_max_mem {α : Type} (g : α → Nat) (l : List α) (m : Nat) {a : α} (h : a ∈ l) :
    g a ≤ l.foldl (fun n b => max n (g b)) m := by
  induction l generalizing m with
  | nil => cases h
  | cons b l ih =>
    rcases List.mem_cons.mp h with rfl | h
    · exact Nat.le_trans (Nat.le_max_right _ _) (foldl_max_ge g l _)
    · exact ih _ h

theorem foldl_max_eq {α : Type} (g : α → Nat) (l : List α) (m : Nat) :
    l.foldl (fun n b => max n (g b)) m = m ∨ ∃ a ∈ l, l.foldl (fun n b => max n (g b)) m = g a := by
  induction l generalizing m with
  | nil => exact Or.inl rfl
  | cons b l ih =>
    rcases ih (max m (g b)) with h | ⟨a, ha, h⟩
    · rw [List.foldl_cons, h]
      rcases Nat.le_total m (g b) with hm | hm
      · exact Or.inr ⟨b, List.mem_cons_self .., Nat.max_eq_right hm⟩
      · exact Or.inl (Nat.max_eq_left hm)
    · exact Or.inr ⟨a, List.mem_cons_of_mem _ ha, h⟩

theorem State.weightedDemand_le (s : State) (f : FanId) (a : Station) : s.weightedDemand f a ≤ s.largestDemand f :=
  foldl_max_mem (s.weightedDemand f) _ 0 (List.mem_finRange a)

theorem State.largestDemand_eq (s : State) (f : FanId) : ∃ a, s.weightedDemand f a = s.largestDemand f := by
  rcases foldl_max_eq (s.weightedDemand f) (List.finRange 16) 0 with h | ⟨a, _, h⟩
  · refine ⟨0, ?_⟩
    have hle := s.weightedDemand_le f 0
    have hz : s.largestDemand f = 0 := h
    omega
  · exact ⟨a, h.symm⟩

/-- A weighted effective demand fits a byte (R91). -/
theorem weighted_lt (w : Weight) (d : Byte) : weighted w d < 256 := by
  have := d.isLt
  cases w <;> simp [weighted] <;> omega

theorem State.largestDemand_lt (s : State) (f : FanId) : s.largestDemand f < 256 := by
  obtain ⟨a, h⟩ := s.largestDemand_eq f
  rw [← h]
  exact weighted_lt _ _

/-- The unforced target as a number (R92). -/
theorem State.unforcedTarget_toNat (s : State) (f : FanId) :
    (s.unforcedTarget f).toNat = max (s.fanCfg f).floor.toNat (s.largestDemand f) := by
  have h₁ := s.largestDemand_lt f
  have h₂ := (s.fanCfg f).floor.isLt
  unfold State.unforcedTarget
  rw [BitVec.toNat_ofNat]
  exact Nat.mod_eq_of_lt (Nat.max_lt.mpr ⟨h₂, h₁⟩)

end Sys2Proof.Machine
end

