-- ==== Sys2Proof/Laws/Queue.lean ====
section
/-! SUPPORT. What queueing, purging and returning can do to the list of pending entries (08). -/
namespace Sys2Proof.Machine

/-- At most one entry of each kind, each admitted in node state `n`: the first two parts of `QueueInStep`. -/
def QueueOk (n : NodeState) (q : List Pending) : Prop :=
  (q.map FrameOf.kind).Nodup ∧ ∀ f ∈ q, n.admits f.kind = true

theorem QueueOk.filter {n : NodeState} {q : List Pending} (h : QueueOk n q) (p : Pending → Bool) :
    QueueOk n (q.filter p) :=
  ⟨h.1.sublist (List.filter_sublist.map _), fun f hf => h.2 f (List.mem_filter.mp hf).1⟩

theorem pendingKind_false {q : List Pending} {k : FrameKind} (h : pendingKind q k = false) : ∀ f ∈ q, f.kind ≠ k := by
  intro f hf he
  unfold pendingKind at h
  rw [List.any_eq_false] at h
  exact h f hf (by simp [he])

theorem withoutKind_ne {q : List Pending} {k : FrameKind} : ∀ f ∈ withoutKind q k, f.kind ≠ k := by
  intro f hf
  unfold withoutKind at hf
  have := (List.mem_filter.mp hf).2
  simpa using this

/-- A new youngest entry of a kind that is not pending. -/
theorem QueueOk.append {n : NodeState} {q : List Pending} (h : QueueOk n q) {f : Pending}
    (hk : ∀ g ∈ q, g.kind ≠ f.kind) (ha : n.admits f.kind = true) : QueueOk n (q ++ [f]) := by
  refine ⟨?_, ?_⟩
  · rw [List.map_append, List.nodup_append]
    refine ⟨h.1, by simp, ?_⟩
    intro a ha' b hb
    simp only [List.map_cons, List.map_nil, List.mem_singleton] at hb
    obtain ⟨g, hg, rfl⟩ := List.mem_map.mp ha'
    rw [hb]
    exact hk g hg
  · intro g hg
    rcases List.mem_append.mp hg with hg | hg
    · exact h.2 g hg
    · rw [List.mem_singleton.mp hg]; exact ha

/-- A new oldest entry of a kind that is not pending. -/
theorem QueueOk.cons {n : NodeState} {q : List Pending} (h : QueueOk n q) {f : Pending}
    (hk : ∀ g ∈ q, g.kind ≠ f.kind) (ha : n.admits f.kind = true) : QueueOk n (f :: q) := by
  refine ⟨?_, ?_⟩
  · rw [List.map_cons, List.nodup_cons]
    refine ⟨?_, h.1⟩
    intro hm
    obtain ⟨g, hg, he⟩ := List.mem_map.mp hm
    exact hk g hg he
  · intro g hg
    rcases List.mem_cons.mp hg with hg | hg
    · rw [hg]; exact ha
    · exact h.2 g hg

/-- Entries changed in place keep their kinds. -/
theorem QueueOk.map {n : NodeState} {q : List Pending} (h : QueueOk n q) {g : Pending → Pending}
    (hg : ∀ f, (g f).kind = f.kind) : QueueOk n (q.map g) := by
  refine ⟨?_, ?_⟩
  · have he : (q.map g).map FrameOf.kind = q.map FrameOf.kind := by
      rw [List.map_map]; exact List.map_congr_left fun f _ => hg f
    rw [he]; exact h.1
  · intro f hf
    obtain ⟨f', hf', rfl⟩ := List.mem_map.mp hf
    rw [hg]; exact h.2 f' hf'

@[simp] theorem growAlarm_kind (rs : List AlarmRecord) (f : Pending) : (growAlarm rs f).kind = f.kind := by
  cases f <;> rfl

@[simp] theorem growAck_kind (ps : List AckPair) (f : Pending) : (growAck ps f).kind = f.kind := by
  cases f <;> rfl

/-- An admitted frame leaves at most one entry of each kind (R141, R144). -/
theorem QueueOk.enqueue {n : NodeState} {q : List Pending} (h : QueueOk n q) {f : Pending}
    (ha : n.admits f.kind = true) : QueueOk n (enqueue q f) := by
  have hnew : ∀ k, pendingKind q k = false → f.kind = k → ∀ g : Pending, g.kind = k → QueueOk n (q ++ [g]) :=
    fun k hp hk g hg => h.append (fun x hx => by rw [hg]; exact pendingKind_false hp x hx) (by rw [hg, ← hk]; exact ha)
  have hrep : QueueOk n (withoutKind q f.kind ++ [f]) := (h.filter _).append withoutKind_ne ha
  cases f with
  | propose r c x => exact hrep
  | vote r v => exact hrep
  | withdraw r => exact hrep
  | commit r cs => exact hrep
  | join g d =>
    unfold Machine.enqueue
    dsimp only
    split
    · exact h
    · rename_i hp
      exact hnew .join (Bool.eq_false_iff.mpr hp) rfl _ rfl
  | status p =>
    unfold Machine.enqueue
    dsimp only
    split
    · exact h
    · rename_i hp
      exact hnew .status (Bool.eq_false_iff.mpr hp) rfl _ rfl
  | leave =>
    unfold Machine.enqueue
    dsimp only
    split
    · exact h
    · rename_i hp
      exact hnew .leave (Bool.eq_false_iff.mpr hp) rfl _ rfl
  | alarm rs =>
    unfold Machine.enqueue
    dsimp only
    split
    · exact h.map (growAlarm_kind rs)
    · rename_i hp
      exact hnew .alarm (Bool.eq_false_iff.mpr hp) rfl _ rfl
  | ack ps =>
    unfold Machine.enqueue
    dsimp only
    split
    · exact h.map (growAck_kind ps)
    · rename_i hp
      exact hnew .ack (Bool.eq_false_iff.mpr hp) rfl _ rfl

/-- Offering a frame keeps at most one admitted entry of each kind (R143, R144). -/
theorem QueueOk.offer {s : State} (h : QueueOk s.life.nodeState s.queue) (f : Pending) :
    QueueOk s.life.nodeState (s.offer f).queue := by
  rw [State.offer_queue]
  split
  · exact h.enqueue ‹_›
  · exact h

/-- An entry of kind `k` pends after queueing a frame of another kind exactly if it did before. -/
theorem pendingKind_enqueue_ne (q : List Pending) (f : Pending) {k : FrameKind} (hk : f.kind ≠ k) :
    pendingKind (enqueue q f) k = pendingKind q k := by
  have happ : ∀ g : Pending, g.kind = f.kind → pendingKind (q ++ [g]) k = pendingKind q k := fun g hg => by
    simp [pendingKind, hg, hk]
  have hmap : ∀ m : Pending → Pending, (∀ g, (m g).kind = g.kind) → pendingKind (q.map m) k = pendingKind q k :=
    fun m hm => by simp [pendingKind, List.any_map, Function.comp_def, hm]
  have hrep : pendingKind (withoutKind q f.kind ++ [f]) k = pendingKind q k := by
    have hfk : (f.kind == k) = false := by simpa using hk
    simp only [pendingKind, withoutKind, List.any_append, List.any_filter, List.any_cons, hfk, List.any_nil, Bool.or_false]
    congr 1
    funext g
    by_cases hg : g.kind = k
    · simp [hg, Ne.symm hk]
    · simp [hg]
  cases f with
  | propose r c x => exact hrep
  | vote r v => exact hrep
  | withdraw r => exact hrep
  | commit r cs => exact hrep
  | join g d => unfold enqueue; dsimp only; split <;> [rfl; exact happ _ rfl]
  | status p => unfold enqueue; dsimp only; split <;> [rfl; exact happ _ rfl]
  | leave => unfold enqueue; dsimp only; split <;> [rfl; exact happ _ rfl]
  | alarm rs => unfold enqueue; dsimp only; split <;> [exact hmap _ (growAlarm_kind rs); exact happ _ rfl]
  | ack ps => unfold enqueue; dsimp only; split <;> [exact hmap _ (growAck_kind ps); exact happ _ rfl]

/-- A frame queued is pending afterwards (R144). -/
theorem pendingKind_enqueue_self (q : List Pending) (f : Pending) : pendingKind (enqueue q f) f.kind = true := by
  have happ : ∀ l : List Pending, ∀ g : Pending, g.kind = f.kind → pendingKind (l ++ [g]) f.kind = true :=
    fun l g hg => by simp [pendingKind, hg]
  have hmap : ∀ m : Pending → Pending, (∀ g, (m g).kind = g.kind) → pendingKind q f.kind = true →
      pendingKind (q.map m) f.kind = true := fun m hm hp => by
    simpa [pendingKind, List.any_map, Function.comp_def, hm] using hp
  cases f with
  | propose r c x => exact happ _ _ rfl
  | vote r v => exact happ _ _ rfl
  | withdraw r => exact happ _ _ rfl
  | commit r cs => exact happ _ _ rfl
  | join g d => unfold enqueue; dsimp only; split <;> [assumption; exact happ _ _ rfl]
  | status p => unfold enqueue; dsimp only; split <;> [assumption; exact happ _ _ rfl]
  | leave => unfold enqueue; dsimp only; split <;> [assumption; exact happ _ _ rfl]
  | alarm rs =>
    unfold enqueue; dsimp only; split
    · exact hmap _ (growAlarm_kind rs) ‹_›
    · exact happ _ _ rfl
  | ack ps =>
    unfold enqueue; dsimp only; split
    · exact hmap _ (growAck_kind ps) ‹_›
    · exact happ _ _ rfl

/-- A frame returned from the wire leaves at most one entry of each kind (R147 to R149). -/
theorem QueueOk.returned {n : NodeState} {q : List Pending} (h : QueueOk n q) {f : Frame} (cur : Bool)
    (ha : n.admits f.kind = true) : QueueOk n (returned q f cur) := by
  have hunless : ∀ g : Pending, g.kind = f.kind → QueueOk n (returnUnlessPending q g) := fun g hg => by
    unfold returnUnlessPending
    split
    · exact h
    · rename_i hp
      exact h.cons (pendingKind_false (by simpa using hp)) (by rw [hg]; exact ha)
  have hmerge : ∀ g : Pending, g.kind = f.kind → QueueOk n (g :: withoutKind q f.kind) := fun g hg =>
    (h.filter _).cons (by rw [hg]; exact withoutKind_ne) (by rw [hg]; exact ha)
  cases f with
  | join g d => exact hunless _ rfl
  | status p => exact hunless _ rfl
  | leave => exact hunless _ rfl
  | commit r cs => exact hunless _ rfl
  | alarm rs => exact hmerge _ rfl
  | ack ps => exact hmerge _ rfl
  | propose r c x => unfold Machine.returned; dsimp only; split <;> [exact hunless _ rfl; exact h]
  | vote r v => unfold Machine.returned; dsimp only; split <;> [exact hunless _ rfl; exact h]
  | withdraw r => unfold Machine.returned; dsimp only; split <;> [exact hunless _ rfl; exact h]

/-- The head is an entry of the queue. -/
theorem headEntry_mem {q : List Pending} {f : Pending} (h : headEntry q = some f) : f ∈ q := by
  induction q generalizing f with
  | nil => simp [headEntry] at h
  | cons g q ih =>
    unfold headEntry at h
    split at h
    · simp only [Option.some.injEq] at h; simp [h]
    · rename_i e he
      split at h
      · simp only [Option.some.injEq] at h; simp [h]
      · simp only [Option.some.injEq] at h
        rw [← h]
        exact List.mem_cons_of_mem _ (ih he)

/-- A queue that is not empty has a head. -/
theorem headEntry_isSome {q : List Pending} (h : q ≠ []) : (headEntry q).isSome = true := by
  cases q with
  | nil => exact absurd rfl h
  | cons g q =>
    unfold headEntry
    split
    · rfl
    · split <;> rfl

end Sys2Proof.Machine
end

