-- ==== Sys2Proof/Laws/Sets.lean ====
section
/-! SUPPORT. Sets of stations and channels: membership after each operation, and equality by membership (R120). -/
namespace Sys2Proof.Machine

variable {w : Nat}

theorem member_single (a b : Fin w) : member (single a) b = decide (a = b) := by
  unfold member single
  rw [BitVec.getLsbD_ofNat, Nat.testBit_two_pow]
  simp [Fin.ext_iff, b.isLt]

theorem member_insert (x : BitVec w) (a b : Fin w) : member (insertMember x a) b = (member x b || decide (a = b)) := by
  rw [← member_single]
  exact BitVec.getLsbD_or

theorem member_remove (x : BitVec w) (a b : Fin w) : member (removeMember x a) b = (member x b && !decide (a = b)) := by
  rw [← member_single]
  unfold member removeMember
  rw [BitVec.getLsbD_and, BitVec.getLsbD_not]
  simp only [b.isLt, decide_true, Bool.true_and]

@[simp] theorem member_zero (b : Fin w) : member (0 : BitVec w) b = false := by simp [member]

/-- Two sets with the same members are equal. -/
theorem sets_equal {x y : BitVec w} (h : ∀ a : Fin w, member x a = member y a) : x = y := by
  apply BitVec.eq_of_getLsbD_eq
  intro i hi
  exact h ⟨i, hi⟩

theorem insertMember_ne_zero (x : BitVec w) (a : Fin w) : insertMember x a ≠ 0 := by
  intro h
  have := member_insert x a a
  rw [h, member_zero] at this
  simp at this

theorem single_ne_zero (a : Fin w) : single a ≠ 0 := by
  intro h
  have := member_single a a
  rw [h, member_zero] at this
  simp at this

theorem member_foldl (p : Fin w → Bool) (l : List (Fin w)) (x : BitVec w) (b : Fin w) :
    member (l.foldl (fun y a => if p a then insertMember y a else y) x) b
      = (member x b || l.any fun a => p a && decide (a = b)) := by
  induction l generalizing x with
  | nil => simp
  | cons a l ih =>
    rw [List.foldl_cons, ih]
    by_cases h : p a = true
    · simp [h, member_insert, Bool.or_assoc]
    · simp [h]

/-- The members of a set built by a condition are those that satisfy it. -/
@[simp] theorem member_membersWhere (p : Fin w → Bool) (b : Fin w) : member (membersWhere p) b = p b := by
  unfold membersWhere
  rw [member_foldl]
  cases hp : p b
  · simp only [member_zero, Bool.false_or, List.any_eq_false]
    intro a _ ha
    simp only [Bool.and_eq_true, decide_eq_true_eq] at ha
    rw [ha.2] at ha
    simp [hp] at ha
  · simp only [member_zero, Bool.false_or, List.any_eq_true]
    exact ⟨b, List.mem_finRange b, by simp [hp]⟩

/-- A set has at most as many members as there are places. -/
theorem cardinality_le (x : BitVec w) : cardinality x ≤ w := by
  unfold cardinality
  exact (List.countP_le_length).trans (by simp)

end Sys2Proof.Machine
end

