-- ==== Sys2Proof/Laws/Rounds.lean ====
section
/-! SUPPORT. What the Round Controller's operations can do to the rest of the node: `State.RoundMoves`, which each of them
makes, and which composes (02). -/
namespace Sys2Proof.Machine

/-- Everything an operation of the Round Controller leaves as it was, and what it keeps of the rest. It may change the
record, the latch and with it the own entry's shutdown held flag, what a recomputation of targets may change of the fans, the
queue, and the leave-pending flag. -/
structure State.RoundMoves (s t : State) : Prop where
  now : t.now = s.now
  resetLine : t.resetLine = s.resetLine
  loader : t.loader = s.loader
  image : t.image = s.image
  nodeState : t.life.nodeState = s.life.nodeState
  listenDeadline : t.life.listenDeadline = s.life.listenDeadline
  recoveryDeadline : t.life.recoveryDeadline = s.life.recoveryDeadline
  statusDeadline : t.life.statusDeadline = s.life.statusDeadline
  sampleDeadlines : t.sampleDeadlines = s.sampleDeadlines
  channels : t.channels = s.channels
  localDemand : t.localDemand = s.localDemand
  standing : t.standing = s.standing
  eligible : t.eligible = s.eligible
  link : t.link = s.link
  port : t.port = s.port
  choices : t.choices = s.choices
  pending : t.pending = s.pending
  /-- An entry can change in its shutdown held flag alone. -/
  entry : ∀ a, { t.peer a with shutdownHeld := false } = { s.peer a with shutdownHeld := false }
  /-- Only the own entry can change. -/
  others : ∀ a, a ≠ s.own → t.peer a = s.peer a
  /-- The own entry goes on mirroring the latch. -/
  held : (s.peer s.own).shutdownHeld = s.shutdownLatch → (t.peer s.own).shutdownHeld = t.shutdownLatch
  latch : s.shutdownLatch = true → t.shutdownLatch = true
  condition : ∀ f, (t.fan f).condition = (s.fan f).condition
  windowDeadline : ∀ f, (t.fan f).windowDeadline = (s.fan f).windowDeadline
  counts : ∀ f, (t.fan f).stallCount = (s.fan f).stallCount ∧ (t.fan f).goodCount = (s.fan f).goodCount
  edgeSeen : ∀ f, (t.fan f).edgeSeen = (s.fan f).edgeSeen
  targets : TargetsCurrent s → TargetsCurrent t
  duties : DutiesFollow s → DutiesFollow t
  queue : QueueOk s.life.nodeState s.queue → QueueOk s.life.nodeState t.queue
  /-- A node that is not ACTIVE queues nothing (R48). -/
  quiet : s.life.nodeState ≠ .active → t.queue.Sublist s.queue
  leave : LeaveFlagTrue s → LeaveFlagTrue t
  halted : HaltedHoldsLatch s → HaltedHoldsLatch t

theorem State.RoundMoves.own {s t : State} (h : s.RoundMoves t) : t.own = s.own := by
  simp [State.own, State.cfg, h.image]

theorem State.RoundMoves.cfg {s t : State} (h : s.RoundMoves t) : t.cfg = s.cfg := by simp [State.cfg, h.image]

theorem State.RoundMoves.running {s t : State} (h : s.RoundMoves t) : t.running = s.running := by
  simp [State.running, h.nodeState]

theorem State.RoundMoves.isActive {s t : State} (h : s.RoundMoves t) : t.isActive = s.isActive := by
  simp [State.isActive, h.nodeState]

theorem State.RoundMoves.isOwn {s t : State} (h : s.RoundMoves t) (a : Station) : t.isOwn a = s.isOwn a := by
  simp [State.isOwn, h.image, h.own]

theorem State.RoundMoves.fanFailed {s t : State} (h : s.RoundMoves t) (f : FanId) : t.fanFailed f = s.fanFailed f := by
  simp [State.fanFailed, h.condition]

theorem State.RoundMoves.refl (s : State) : s.RoundMoves s := by
  constructor <;> intros <;> first | rfl | assumption | exact List.Sublist.refl _ | exact ⟨rfl, rfl⟩

theorem State.RoundMoves.trans {s t u : State} (h₁ : s.RoundMoves t) (h₂ : t.RoundMoves u) : s.RoundMoves u where
  now := h₂.now.trans h₁.now
  resetLine := h₂.resetLine.trans h₁.resetLine
  loader := h₂.loader.trans h₁.loader
  image := h₂.image.trans h₁.image
  nodeState := h₂.nodeState.trans h₁.nodeState
  listenDeadline := h₂.listenDeadline.trans h₁.listenDeadline
  recoveryDeadline := h₂.recoveryDeadline.trans h₁.recoveryDeadline
  statusDeadline := h₂.statusDeadline.trans h₁.statusDeadline
  sampleDeadlines := h₂.sampleDeadlines.trans h₁.sampleDeadlines
  channels := h₂.channels.trans h₁.channels
  localDemand := h₂.localDemand.trans h₁.localDemand
  standing := h₂.standing.trans h₁.standing
  eligible := h₂.eligible.trans h₁.eligible
  link := h₂.link.trans h₁.link
  port := h₂.port.trans h₁.port
  choices := h₂.choices.trans h₁.choices
  pending := h₂.pending.trans h₁.pending
  entry a := (h₂.entry a).trans (h₁.entry a)
  others a ha := (h₂.others a (by rw [h₁.own]; exact ha)).trans (h₁.others a ha)
  held hs := by
    have := h₂.held (by rw [h₁.own]; exact h₁.held hs)
    rwa [h₁.own] at this
  latch hs := h₂.latch (h₁.latch hs)
  condition f := (h₂.condition f).trans (h₁.condition f)
  windowDeadline f := (h₂.windowDeadline f).trans (h₁.windowDeadline f)
  counts f := ⟨(h₂.counts f).1.trans (h₁.counts f).1, (h₂.counts f).2.trans (h₁.counts f).2⟩
  edgeSeen f := (h₂.edgeSeen f).trans (h₁.edgeSeen f)
  targets hs := h₂.targets (h₁.targets hs)
  duties hs := h₂.duties (h₁.duties hs)
  queue hs := h₁.nodeState ▸ h₂.queue (h₁.nodeState ▸ h₁.queue hs)
  quiet hs := (h₂.quiet (h₁.nodeState ▸ hs)).trans (h₁.quiet hs)
  leave hs := h₂.leave (h₁.leave hs)
  halted hs := h₂.halted (h₁.halted hs)

/-! ## The plain operations -/

/-- Recomputing the targets (R93). -/
theorem State.recomputeTargets_moves (s : State) : s.RoundMoves s.recomputeTargets := by
  have hf := State.recomputeTargets_fan s
  constructor
  case condition => intro f; simp [hf]
  case windowDeadline => intro f; simp [hf]
  case counts => intro f; simp [hf]
  case edgeSeen => intro f; simp [hf]
  case targets => exact fun _ => State.recomputeTargets_current s
  case duties => intro h f; rw [hf]; exact State.retarget_follows (h f)
  case quiet => exact fun _ => List.Sublist.refl _
  all_goals intros
  all_goals first | rfl | assumption

/-- Offering a frame of the four round kinds (R48). -/
theorem State.offer_moves (s : State) (f : Pending)
    (hk : f.kind = .propose ∨ f.kind = .vote ∨ f.kind = .withdraw ∨ f.kind = .commit) : s.RoundMoves (s.offer f) := by
  have hfan : ∀ g, (s.offer f).fan g = s.fan g := fun g => by cases g <;> simp [State.fan]
  have hpeer : ∀ a, (s.offer f).peer a = s.peer a := fun a => by simp [State.peer]
  have hdrive : s.SameDrive (s.offer f) :=
    ⟨by simp, by simp, by simp, by simp, fun g => by simp [State.fanFailed, hfan], fun a => by
      simp [State.effectiveDemand, State.isOwn, hpeer]⟩
  constructor
  case targets => exact fun h => h.same hdrive fun g => by simp [hfan]
  case duties => intro h g; simpa [hfan] using h g
  case queue => exact fun h => h.offer f
  case quiet =>
    intro hn
    rw [State.offer_queue]
    have : s.life.nodeState.admits f.kind = false := by
      revert hn
      rcases hk with h | h | h | h <;> rw [h] <;> cases s.life.nodeState <;> simp [NodeState.admits]
    simp [this]
  case leave =>
    intro h
    unfold LeaveFlagTrue at h ⊢
    rw [State.offer_queue]
    simp only [State.offer_life, State.offer_link]
    split
    · rw [pendingKind_enqueue_ne]
      · exact h
      · rcases hk with h | h | h | h <;> rw [h] <;> decide
    · exact h
  case halted => intro h; unfold HaltedHoldsLatch at h ⊢; simpa using h
  all_goals intros
  all_goals first
    | (simp [hfan, hpeer]; done)
    | (simp only [hpeer, State.offer_shutdownLatch]; assumption)

/-- Purging entries other than a LEAVE (R151). -/
theorem State.purge_moves (s : State) (p : Pending → Bool) (hp : ∀ f, f.kind = .leave → p f = false) :
    s.RoundMoves (s.purge p) := by
  constructor
  case targets =>
    exact fun h => h.same ⟨rfl, rfl, Iff.rfl, rfl, fun _ => rfl, fun _ => rfl⟩ fun _ => ⟨rfl, rfl⟩
  case queue => exact fun h => h.filter _
  case quiet => exact fun _ => List.filter_sublist
  case leave =>
    intro h
    unfold LeaveFlagTrue at h ⊢
    have hk : pendingKind (s.purge p).queue .leave = pendingKind s.queue .leave := by
      simp only [pendingKind, State.purge_queue, List.any_filter]
      congr 1
      funext f
      by_cases hf : f.kind = .leave
      · simp [hf, hp f hf]
      · simp [hf]
    rw [hk]
    exact h
  all_goals intros
  all_goals first | rfl | assumption | exact ⟨rfl, rfl⟩

/-- Storing the record (R47). A record stored as HALTED goes with an asserted latch. -/
theorem State.storeRound_moves (s : State) (r : RoundRecord) (hr : r.state = .halted → s.shutdownLatch = true) :
    s.RoundMoves (s.storeRound r) := by
  by_cases hst : r.state = s.round.state
  · have he : s.storeRound r = { s with round := r } := by unfold State.storeRound; simp [hst]
    rw [he]
    constructor
    case targets =>
      exact fun h => h.same ⟨rfl, rfl, by simp [hst], rfl, fun _ => rfl, fun _ => rfl⟩ fun _ => ⟨rfl, rfl⟩
    case quiet => exact fun _ => List.Sublist.refl _
    case halted => exact fun _ => hr
    all_goals intros
    all_goals first | rfl | assumption | exact ⟨rfl, rfl⟩
  · have he : s.storeRound r = { s with round := r }.recomputeTargets := by unfold State.storeRound; simp [hst]
    rw [he]
    have hm := State.recomputeTargets_moves { s with round := r }
    constructor
    case targets => exact fun _ => State.recomputeTargets_current _
    case duties => exact hm.duties
    case quiet => exact hm.quiet
    case condition => exact hm.condition
    case windowDeadline => exact hm.windowDeadline
    case counts => exact hm.counts
    case edgeSeen => exact hm.edgeSeen
    case halted => exact fun _ => hr
    all_goals intros
    all_goals first | rfl | assumption

/-- The latch asserted and the record HALTED (R45). -/
theorem State.halt_moves (s : State) : s.RoundMoves s.halt := by
  have h₁ : ({ s with shutdownLatch := true }.mirrorLatch).RoundMoves s.halt :=
    (State.storeRound_moves _ _ fun _ => rfl).trans (State.recomputeTargets_moves _)
  have hlatch : s.halt.shutdownLatch = true := h₁.latch rfl
  have hentry : ∀ a, { ({ s with shutdownLatch := true }.mirrorLatch).peer a with shutdownHeld := false }
      = { s.peer a with shutdownHeld := false } := fun a => by
    by_cases ha : a = s.own
    · subst ha
      have := State.updateOwn_peer_own { s with shutdownLatch := true }
        (fun e => { e with shutdownHeld := ({ s with shutdownLatch := true } : State).shutdownLatch })
      exact congrArg (fun e : PeerEntry => { e with shutdownHeld := false }) this
    · have := State.updateOwn_peer_ne { s with shutdownLatch := true }
        (fun e => { e with shutdownHeld := ({ s with shutdownLatch := true } : State).shutdownLatch }) ha
      exact congrArg (fun e : PeerEntry => { e with shutdownHeld := false }) this
  constructor
  case now => exact h₁.now
  case resetLine => exact h₁.resetLine
  case loader => exact h₁.loader
  case image => exact h₁.image
  case nodeState => exact h₁.nodeState
  case listenDeadline => exact h₁.listenDeadline
  case recoveryDeadline => exact h₁.recoveryDeadline
  case statusDeadline => exact h₁.statusDeadline
  case sampleDeadlines => exact h₁.sampleDeadlines
  case channels => exact h₁.channels
  case localDemand => exact h₁.localDemand
  case standing => exact h₁.standing
  case eligible => exact h₁.eligible
  case link => exact h₁.link
  case port => exact h₁.port
  case choices => exact h₁.choices
  case pending => exact h₁.pending
  case entry => exact fun a => (h₁.entry a).trans (hentry a)
  case others =>
    exact fun a ha => (h₁.others a ha).trans (State.updateOwn_peer_ne { s with shutdownLatch := true } _ ha)
  case held =>
    intro _
    exact h₁.held (congrArg PeerEntry.shutdownHeld (State.updateOwn_peer_own { s with shutdownLatch := true } _))
  case latch => exact fun _ => hlatch
  case condition => exact h₁.condition
  case windowDeadline => exact h₁.windowDeadline
  case counts => exact h₁.counts
  case edgeSeen => exact h₁.edgeSeen
  case targets => exact fun _ => State.recomputeTargets_current _
  case duties => exact h₁.duties
  case queue => exact h₁.queue
  case quiet => exact h₁.quiet
  case leave => exact h₁.leave
  case halted => exact fun _ _ => hlatch

theorem State.graceAtOnce_moves (s : State) : s.RoundMoves s.graceAtOnce := by
  unfold State.graceAtOnce
  split
  · exact s.halt_moves
  · exact .refl s

/-! ## The composed operations -/

theorem isUndecidedRound_leave (f : Pending) (h : f.kind = .leave) : isUndecidedRound f = false := by
  simp [isUndecidedRound, h]

theorem isProposeOrVote_leave (f : Pending) (h : f.kind = .leave) : isProposeOrVote f = false := by
  simp [isProposeOrVote, h]

theorem State.commitByTally_moves (s : State) : s.RoundMoves s.commitByTally := by
  unfold State.commitByTally
  dsimp only
  exact (((State.storeRound_moves _ _ (by simp [State.tallyRecord])).trans
    (State.purge_moves _ _ isUndecidedRound_leave)).trans
    (State.offer_moves _ _ (by simp [FrameOf.kind]))).trans (State.graceAtOnce_moves _)

theorem State.commitTest_moves (s : State) : s.RoundMoves s.commitTest := by
  unfold State.commitTest
  split
  · exact s.commitByTally_moves
  · exact .refl s

theorem State.adopt_moves (s : State) (r : Byte) (set : Option StationSet) : s.RoundMoves (s.adopt r set) := by
  unfold State.adopt
  exact ((State.storeRound_moves _ _ (by simp [State.adoptedRecord])).trans
    (State.purge_moves _ _ isUndecidedRound_leave)).trans (State.graceAtOnce_moves _)

/-- A storing that leaves the record's state alone moves whatever stands. -/
theorem State.storeRound_same_moves (s : State) (r : RoundRecord) (h : r.state = s.round.state)
    (hh : s.round.state ≠ .halted) : s.RoundMoves (s.storeRound r) :=
  State.storeRound_moves s r fun hr => absurd (h.symm.trans hr) hh

theorem State.coPropose_moves (s : State) (h : s.round.state ≠ .halted) : s.RoundMoves s.coPropose := by
  unfold State.coPropose
  dsimp only
  have hs : ∀ r : RoundRecord, r.state = s.round.state → s.RoundMoves
      (((s.storeRound r).purge (fun f => f == .withdraw s.round.number)).offer (s.proposeFrame s.round.number)) :=
    fun r hr => ((State.storeRound_same_moves s r hr h).trans
      (State.purge_moves _ _ fun f hf => by cases f <;> simp_all [FrameOf.kind])).trans
      (State.offer_moves _ _ (by simp [State.proposeFrame, FrameOf.kind]))
  split
  · exact hs { s.round with proposers := insertMember s.round.proposers s.own, ownVerdict := some .concur } rfl
  · exact (hs { s.round with proposers := insertMember s.round.proposers s.own, ownVerdict := some .concur } rfl).trans
      (State.commitTest_moves _)

/-- The opening of a round takes back a pending LEAVE, and the flag stays true to what remains (R167). -/
theorem State.roundOpened_moves (s : State) : s.RoundMoves s.roundOpened := by
  unfold State.roundOpened
  have hgone : pendingKind (s.purge fun f => f.kind == .leave).queue .leave = false := by
    simp [pendingKind, State.purge_queue]
  split
  · rename_i hp
    have hp := Bool.and_eq_true_iff.mp hp
    dsimp only
    split
    · rename_i hfl
      constructor
      case targets =>
        exact fun h => h.same ⟨rfl, rfl, Iff.rfl, rfl, fun _ => rfl, fun _ => rfl⟩ fun _ => ⟨rfl, rfl⟩
      case queue => exact fun h => h.filter _
      case quiet => exact fun _ => List.filter_sublist
      case leave =>
        intro _
        exact ⟨fun _ => Or.inr hfl, fun _ => hp.1⟩
      all_goals intros
      all_goals first | rfl | assumption | exact ⟨rfl, rfl⟩
    · rename_i hfl
      constructor
      case targets =>
        exact fun h => h.same ⟨rfl, rfl, Iff.rfl, rfl, fun _ => rfl, fun _ => rfl⟩ fun _ => ⟨rfl, rfl⟩
      case queue => exact fun h => h.filter _
      case quiet => exact fun _ => List.filter_sublist
      case leave =>
        intro _
        unfold LeaveFlagTrue
        simp only [hgone, Bool.false_eq_true, false_or, false_iff]
        exact hfl
      all_goals intros
      all_goals first | rfl | assumption | exact ⟨rfl, rfl⟩
  · exact .refl s

@[simp] theorem State.roundOpened_round (s : State) : s.roundOpened.round = s.round := by
  unfold State.roundOpened
  repeat' split
  all_goals rfl

@[simp] theorem State.offer_round_state (s : State) (f : Pending) : (s.offer f).round.state = s.round.state := by simp

theorem State.openOwn_moves (s : State) : s.RoundMoves s.openOwn := by
  unfold State.openOwn
  dsimp only
  exact (((State.storeRound_moves _ _ (by simp [State.ownRoundRecord])).trans
    (State.offer_moves _ _ (by simp [State.proposeFrame, FrameOf.kind]))).trans
    (State.roundOpened_moves _)).trans (State.commitTest_moves _)

theorem State.propose_moves (s : State) : s.RoundMoves s.propose := by
  unfold State.propose
  split
  · split
    · exact s.openOwn_moves
    · rename_i h; exact s.coPropose_moves (by simp [h])
    · exact .refl s
    · exact .refl s
  · exact .refl s

theorem State.answerOpening_moves (s : State) (h : s.round.state ≠ .halted) : s.RoundMoves s.answerOpening := by
  unfold State.answerOpening
  split
  · exact s.coPropose_moves h
  · split
    · exact State.offer_moves _ _ (by simp [FrameOf.kind])
    · exact .refl s

theorem State.openHeard_moves (s : State) (r : RoundRecord) (h : r.state = .opened) :
    s.RoundMoves (s.openHeard r) := by
  unfold State.openHeard
  exact (((State.storeRound_moves _ _ (by simp [h])).trans (State.roundOpened_moves _)).trans
    (State.answerOpening_moves _ (by simp [h]))).trans (State.commitTest_moves _)

theorem State.abandon_moves (s : State) : s.RoundMoves s.abandon := by
  unfold State.abandon
  exact (State.storeRound_moves _ _ (by simp [RoundRecord.abandoned])).trans
    (State.purge_moves _ _ isProposeOrVote_leave)

theorem State.dropProposer_moves (s : State) (a : Station) (h : s.round.state ≠ .halted) :
    s.RoundMoves (s.dropProposer a) := by
  unfold State.dropProposer
  dsimp only
  split
  · exact s.abandon_moves.trans (State.propose_moves _)
  · exact State.storeRound_same_moves s _ rfl h

theorem State.withdrawOwn_moves (s : State) : s.RoundMoves s.withdrawOwn := by
  unfold State.withdrawOwn
  split
  · rename_i h
    exact ((State.purge_moves _ _ fun f hf => by simp [hf]).trans
      (State.offer_moves _ _ (by simp [FrameOf.kind]))).trans
      (State.dropProposer_moves _ _ (by simp [h.1]))
  · exact .refl s

theorem State.recordVote_moves (s : State) (a : Station) (v : Verdict) (h : s.round.state ≠ .halted) :
    s.RoundMoves (s.recordVote a v) := by
  unfold State.recordVote
  exact (State.storeRound_same_moves s { s.round with votes := recordVerdict s.round.votes a v } rfl h).trans (State.commitTest_moves _)

theorem State.verdictChanged_moves (s : State) (v : Verdict) : s.RoundMoves (s.verdictChanged v) := by
  unfold State.verdictChanged
  split
  · rename_i h
    exact ((State.storeRound_same_moves s { s.round with ownVerdict := some .concur } rfl (by simp [h.1])).trans
      (State.offer_moves _ (.vote s.round.number .concur) (by simp [FrameOf.kind]))).trans (State.commitTest_moves _)
  · exact .refl s

theorem State.openFromPropose_moves (s : State) (a : Station) (r : Byte) (c : Channel) (x : HalfDegrees) :
    s.RoundMoves (s.openFromPropose a r c x) := s.openHeard_moves _ rfl

theorem State.hearPropose_moves (s : State) (a : Station) (r : Byte) (c : Channel) (x : HalfDegrees) :
    s.RoundMoves (s.hearPropose a r c x) := by
  unfold State.hearPropose
  split
  · split
    · exact .refl s
    · exact s.openFromPropose_moves a r c x
  · rename_i h
    split
    · exact (State.storeRound_same_moves s { s.round with proposers := insertMember s.round.proposers a } rfl (by simp [h])).trans
        (State.recordVote_moves _ _ _ (by simp [h]))
    · split
      · exact s.abandon_moves.trans (State.openFromPropose_moves _ _ _ _ _)
      · exact .refl s
  · exact .refl s
  · exact .refl s

theorem State.openFromStatus_moves (s : State) (a : Station) (f : StatusFields) :
    s.RoundMoves (s.openFromStatus a f) := by
  unfold State.openFromStatus
  dsimp only
  split
  · exact .refl s
  · exact s.openHeard_moves _ rfl

theorem State.hearOpenStatus_moves (s : State) (a : Station) (f : StatusFields) :
    s.RoundMoves (s.hearOpenStatus a f) := by
  unfold State.hearOpenStatus
  split
  · split
    · exact .refl s
    · exact s.openFromStatus_moves a f
  · rename_i h
    split
    · split
      · exact State.recordVote_moves _ _ _ (by simp [h])
      · exact .refl s
    · split
      · exact s.abandon_moves.trans (State.openFromStatus_moves _ _ _)
      · exact .refl s
  · exact .refl s
  · exact .refl s

theorem State.hearCommitment_moves (s : State) (r : Byte) (set : Option StationSet) :
    s.RoundMoves (s.hearCommitment r set) := by
  unfold State.hearCommitment
  split
  · exact s.adopt_moves r set
  · exact s.adopt_moves r set
  · exact .refl s
  · exact .refl s

theorem State.hearStatusRound_moves (s : State) (a : Station) (f : StatusFields) :
    s.RoundMoves (s.hearStatusRound a f) := by
  unfold State.hearStatusRound
  split
  · exact .refl s
  · exact s.hearOpenStatus_moves a f
  · exact s.hearCommitment_moves _ _
  · exact s.hearCommitment_moves _ _

theorem State.hearVote_moves (s : State) (a : Station) (r : Byte) (v : Verdict) : s.RoundMoves (s.hearVote a r v) := by
  unfold State.hearVote
  split
  · rename_i h; exact State.recordVote_moves _ _ _ (by simp [h.1])
  · exact .refl s

theorem State.hearWithdraw_moves (s : State) (a : Station) (r : Byte) : s.RoundMoves (s.hearWithdraw a r) := by
  unfold State.hearWithdraw
  split
  · rename_i h; exact State.dropProposer_moves _ _ (by simp [h.1])
  · exact .refl s

theorem State.roundEntersActive_moves (s : State) : s.RoundMoves s.roundEntersActive := by
  unfold State.roundEntersActive
  split
  · exact s.propose_moves
  · rename_i h
    exact (State.answerOpening_moves _ (by simp [h])).trans (State.commitTest_moves _)
  · exact .refl s
  · exact .refl s

/-! ## What the moves leave for the counts -/

theorem State.RoundMoves.presence {s t : State} (h : s.RoundMoves t) (a : Station) :
    (t.peer a).presence = (s.peer a).presence := by simpa using congrArg PeerEntry.presence (h.entry a)

theorem State.RoundMoves.signatureState {s t : State} (h : s.RoundMoves t) (a : Station) :
    (t.peer a).signatureState = (s.peer a).signatureState := by simpa using congrArg PeerEntry.signatureState (h.entry a)

/-- P as the table stands is not moved by the Round Controller (R17). -/
theorem State.RoundMoves.eligibleNow {s t : State} (h : s.RoundMoves t) : t.eligibleNow = s.eligibleNow := by
  have hc : t.countsInP = s.countsInP := by
    funext a; simp [State.countsInP, h.isOwn, h.presence, h.signatureState]
  simp [State.eligibleNow, h.isActive, hc]

/-- No effective demand is moved by the Round Controller (R19). -/
theorem State.RoundMoves.effectiveDemand {s t : State} (h : s.RoundMoves t) (a : Station) :
    t.effectiveDemand a = s.effectiveDemand a := by
  have h₁ : (t.peer a).demand = (s.peer a).demand := by simpa using congrArg PeerEntry.demand (h.entry a)
  have h₂ : (t.peer a).fanAFailed = (s.peer a).fanAFailed := by simpa using congrArg PeerEntry.fanAFailed (h.entry a)
  have h₃ : (t.peer a).fanBFailed = (s.peer a).fanBFailed := by simpa using congrArg PeerEntry.fanBFailed (h.entry a)
  simp [State.effectiveDemand, h.isOwn, h.presence, h₁, h₂, h₃]

/-- A recomputation gives no fan another window, count or state. -/
theorem State.recomputeTargets_supervision (s : State) : s.SameSupervision s.recomputeTargets := by
  intro f
  rw [State.recomputeTargets_fan]
  unfold State.retarget FanRecord.follow FanRecord.withDuty
  dsimp only
  repeat' split
  all_goals rfl

/-- The Round Controller gives no fan another window, count or state. -/
theorem State.RoundMoves.supervision {s t : State} (h : s.RoundMoves t) : s.SameSupervision t := by
  intro f
  have h₁ := h.condition f
  have h₂ := h.windowDeadline f
  have h₃ := h.counts f
  have h₄ := h.edgeSeen f
  revert h₁ h₂ h₃ h₄
  cases t.fan f
  cases s.fan f
  rintro h₁ h₂ ⟨h₃, h₅⟩ h₄
  cases h₁; cases h₂; cases h₃; cases h₄; cases h₅
  rfl

theorem State.SameSupervision.refl (s : State) : s.SameSupervision s := fun _ => rfl

theorem State.SameSupervision.trans {s t u : State} (h₁ : s.SameSupervision t) (h₂ : t.SameSupervision u) :
    s.SameSupervision u := by
  intro f
  rw [h₂ f, h₁ f]

/-- What the Round Controller's operations do to the state as a whole. -/
theorem State.RoundMoves.frame {s t : State} (h : s.RoundMoves t) :
    t = { s with
      peers := t.peers
      round := t.round
      shutdownLatch := t.shutdownLatch
      fanA := t.fanA
      fanB := t.fanB
      queue := t.queue
      life := { s.life with leavePending := t.life.leavePending } } := by
  obtain ⟨h1, h2, h3, h4, h5, h6, h7, h8, h9, h10, h11, h12, h13, h14, h15, h16, h17, _⟩ := h
  have hl : t.life = { s.life with leavePending := t.life.leavePending } := by
    revert h5 h6 h7 h8
    cases t.life
    cases s.life
    rintro h5 h6 h7 h8
    cases h5; cases h6; cases h7; cases h8
    rfl
  revert h1 h2 h3 h4 h9 h10 h11 h12 h13 h14 h15 h16 h17 hl
  clear * -
  cases t
  cases s
  rintro h1 h2 h3 h4 h9 h10 h11 h12 h13 h14 h15 h16 h17 hl
  cases h1; cases h2; cases h3; cases h4; cases h9; cases h10; cases h11; cases h12; cases h13; cases h14; cases h15
  cases h16; cases h17
  exact congrArg (fun l => State.mk _ _ _ _ l _ _ _ _ _ _ _ _ _ _ _ _ _ _ _) hl

/-- A commitment touches nothing of the node's life. -/
theorem State.halt_life (s : State) : s.halt.life = s.life := by
  unfold State.halt; simp [State.mirrorLatch]

theorem State.graceAtOnce_life (s : State) : s.graceAtOnce.life = s.life := by
  unfold State.graceAtOnce; split <;> [exact s.halt_life; rfl]

theorem State.commitTest_life (s : State) : s.commitTest.life = s.life := by
  unfold State.commitTest
  split
  · unfold State.commitByTally; dsimp only; rw [State.graceAtOnce_life]; simp
  · rfl

theorem State.commitTest_frame (s : State) :
    s.commitTest = { s with
      round := s.commitTest.round
      shutdownLatch := s.commitTest.shutdownLatch
      queue := s.commitTest.queue
      peers := s.commitTest.peers
      fanA := s.commitTest.fanA
      fanB := s.commitTest.fanB } := by
  have h := s.commitTest_moves.frame
  rw [State.commitTest_life] at h
  exact h

/-- The entries beside `a`: the own entry changes in its shutdown held flag alone, and every other entry not at all. -/
theorem State.RoundMoves.samePeersBut {s t : State} (h : s.RoundMoves t) (a : Station) : s.SamePeersBut t a := by
  intro b _
  split
  · have := h.entry b
    revert this
    cases t.peer b
    cases s.peer b
    simp
  · rename_i hb
    exact h.others b hb

/-! ## What a commitment leaves -/

/-- Storing a record leaves the latch, the queue and the entries alone. -/
theorem State.storeRound_keeps (s : State) (r : RoundRecord) :
    (s.storeRound r).shutdownLatch = s.shutdownLatch ∧ (s.storeRound r).queue = s.queue
      ∧ (s.storeRound r).peers = s.peers := by
  refine ⟨by simp, by simp, by simp⟩

/-- The record, the latch and the queue once the grace that is over at once has been taken (R45; log 7). -/
theorem State.graceAtOnce_spec (s : State) (h : s.round.state = .committed) :
    s.graceAtOnce.round = { s.round with
        state := if s.cfg.graceSeconds = 0 then .halted else .committed
        graceDeadline := if s.cfg.graceSeconds = 0 then none else s.round.graceDeadline }
      ∧ s.graceAtOnce.shutdownLatch = (s.shutdownLatch || decide (s.cfg.graceSeconds = 0))
      ∧ s.graceAtOnce.queue = s.queue := by
  have hg : s.cfg.graceInterval = 0 ↔ s.cfg.graceSeconds = 0 := by
    simp [StartImage.graceInterval]
  unfold State.graceAtOnce
  by_cases h0 : s.cfg.graceSeconds = 0
  · rw [if_pos ⟨h, hg.mpr h0⟩]
    unfold State.halt
    simp [h0, State.mirrorLatch]
  · rw [if_neg (fun hc => h0 (hg.mp hc.2))]
    simp [h0]
    rw [← h]

theorem State.commitTest_fails (s : State)
    (h : s.isActive = false ∨ s.round.state ≠ .opened ∨ s.concurCount < s.quorum) : s.commitTest = s := by
  unfold State.commitTest
  rw [if_neg]
  rintro ⟨h₁, h₂, h₃⟩
  rcases h with h | h | h
  · simp [h] at h₁
  · exact h h₂
  · omega

/-- What a commitment by this node's own tally leaves (R37, R45, R49). -/
theorem State.commitTest_commits (s : State) (ha : s.isActive = true) (ho : s.round.state = .opened)
    (hq : s.quorum ≤ s.concurCount) :
    ∃ set, s.tallyRecord.concurSet = some set
      ∧ s.commitTest.round =
        { s.round with
          state := if s.cfg.graceSeconds = 0 then .halted else .committed
          proposers := 0
          roundDeadline := none
          graceDeadline := if s.cfg.graceSeconds = 0 then none else some (s.now + s.cfg.graceSeconds * 1000)
          concurSet := some set }
      ∧ s.commitTest.shutdownLatch = (s.shutdownLatch || decide (s.cfg.graceSeconds = 0))
      ∧ s.commitTest.queue
        = withoutKind (s.queue.filter fun f => !isUndecidedRound f) .commit ++ [.commit s.round.number set] := by
  have hc : s.commitTest = s.commitByTally := by
    unfold State.commitTest
    rw [if_pos ⟨ha, ho, hq⟩]
  have hn : s.life.nodeState = .active := by simpa [State.isActive] using ha
  refine ⟨_, rfl, ?_⟩
  rw [hc]
  unfold State.commitByTally
  dsimp only
  have h := State.graceAtOnce_spec (((s.storeRound s.tallyRecord).purge isUndecidedRound).offer
    (.commit s.tallyRecord.number (s.tallyRecord.concurSet.getD 0))) (by simp [State.tallyRecord])
  obtain ⟨h₁, h₂, h₃⟩ := h
  refine ⟨?_, ?_, ?_⟩
  · rw [h₁]
    simp [State.tallyRecord, StartImage.graceInterval]
  · rw [h₂]
    simp
  · rw [h₃, State.offer_queue]
    simp [State.tallyRecord, FrameOf.kind, hn, NodeState.admits, enqueue]

/-! ## What adoption, abandonment and opening leave -/

/-- What adopting a commitment for round `r` leaves (R42, R43, R45). -/
theorem State.adopt_spec (s : State) (r : Byte) (set : Option StationSet) :
    (s.adopt r set).round =
        { s.adoptedRecord r set with
          state := if s.cfg.graceSeconds = 0 then .halted else .committed
          graceDeadline := if s.cfg.graceSeconds = 0 then none else some (s.now + s.cfg.graceSeconds * 1000) }
      ∧ (s.adopt r set).shutdownLatch = (s.shutdownLatch || decide (s.cfg.graceSeconds = 0))
      ∧ (s.adopt r set).queue = s.queue.filter fun f => !isUndecidedRound f := by
  unfold State.adopt
  obtain ⟨h₁, h₂, h₃⟩ := State.graceAtOnce_spec ((s.storeRound (s.adoptedRecord r set)).purge isUndecidedRound)
    (by simp [State.adoptedRecord])
  refine ⟨?_, ?_, ?_⟩
  · rw [h₁]
    simp [State.adoptedRecord, StartImage.graceInterval]
  · rw [h₂]; simp
  · rw [h₃]; simp

/-- A storing that changes the record's state leaves the targets current (R47, R93). -/
theorem State.storeRound_current (s : State) (r : RoundRecord) (h : r.state ≠ s.round.state) :
    TargetsCurrent (s.storeRound r) := by
  unfold State.storeRound
  rw [if_neg h]
  exact State.recomputeTargets_current _

theorem State.storeRound_frame (s : State) (r : RoundRecord) :
    s.storeRound r = { s with round := r, fanA := (s.storeRound r).fanA, fanB := (s.storeRound r).fanB } := by
  unfold State.storeRound
  dsimp only
  split <;> rfl

/-- Adoption leaves the targets current. -/
theorem State.adopt_current (s : State) (r : Byte) (set : Option StationSet)
    (h : s.round.state = .idle ∨ s.round.state = .opened) : TargetsCurrent (s.adopt r set) := by
  unfold State.adopt
  refine (State.graceAtOnce_moves _).targets ?_
  refine (State.purge_moves _ _ isUndecidedRound_leave).targets ?_
  apply State.storeRound_current
  rcases h with h | h <;> simp [State.adoptedRecord, h]

/-- What abandoning the round leaves (R40). -/
theorem State.abandon_spec (s : State) :
    s.abandon = { s with
      round := s.round.abandoned
      queue := s.queue.filter fun f => !isProposeOrVote f
      fanA := s.abandon.fanA
      fanB := s.abandon.fanB } := by
  unfold State.abandon
  rw [State.storeRound_frame]
  rfl

/-- The proposal test made on an IDLE record (R24). -/
theorem State.proposalTest_idle (s : State) (h : s.round.state = .idle) :
    s.proposalTest = (s.isActive && s.nodeCritical) := by
  simp [State.proposalTest, h]

/-- Every opening keeps its round's number, last closed number and reason, and ends OPEN or decided, whatever the answer and
the commit test bring. -/
structure RoundRecord.OpensAs (r t : RoundRecord) : Prop where
  number : t.number = r.number
  lastClosed : t.lastClosed = r.lastClosed
  reason : t.reason = r.reason
  votes : t.votes = r.votes
  state : t.state ≠ .idle
  concurs : r.ownVerdict = some .concur → t.ownVerdict = some .concur

theorem RoundRecord.OpensAs.refl {r : RoundRecord} (h : r.state ≠ .idle) : r.OpensAs r := ⟨rfl, rfl, rfl, rfl, h, id⟩

theorem RoundRecord.OpensAs.trans {r t u : RoundRecord} (h₁ : r.OpensAs t) (h₂ : t.OpensAs u) : r.OpensAs u :=
  ⟨h₂.number.trans h₁.number, h₂.lastClosed.trans h₁.lastClosed, h₂.reason.trans h₁.reason, h₂.votes.trans h₁.votes,
    h₂.state, fun h => h₂.concurs (h₁.concurs h)⟩

theorem State.commitTest_opensAs (s : State) (h : s.round.state = .opened) : s.round.OpensAs s.commitTest.round := by
  by_cases hc : s.isActive = true ∧ s.quorum ≤ s.concurCount
  · obtain ⟨set, _, hr, _⟩ := s.commitTest_commits hc.1 h hc.2
    rw [hr]
    refine ⟨rfl, rfl, rfl, rfl, ?_, id⟩
    simp only
    split <;> simp
  · rw [s.commitTest_fails]
    · exact .refl (by simp [h])
    · rcases Classical.not_and_iff_not_or_not.mp hc with hc | hc
      · exact Or.inl (by simpa using hc)
      · exact Or.inr (Or.inr (by omega))

theorem State.coPropose_opensAs (s : State) (h : s.round.state = .opened) : s.round.OpensAs s.coPropose.round := by
  unfold State.coPropose
  dsimp only
  have hx : s.round.OpensAs (((s.storeRound { s.round with
      proposers := insertMember s.round.proposers s.own, ownVerdict := some .concur }).purge
      (fun f => f == .withdraw s.round.number)).offer (s.proposeFrame s.round.number)).round := by
    rw [State.offer_round, State.purge_round, State.storeRound_round]
    exact ⟨rfl, rfl, rfl, rfl, by simp [h], fun _ => rfl⟩
  split
  · exact hx
  · exact hx.trans (State.commitTest_opensAs _ (by simp [h]))

theorem State.answerOpening_opensAs (s : State) (h : s.round.state = .opened) :
    s.round.OpensAs s.answerOpening.round := by
  unfold State.answerOpening
  split
  · exact s.coPropose_opensAs h
  · split
    · rw [State.offer_round]; exact .refl (by simp [h])
    · exact .refl (by simp [h])

/-- A commit test on a record in any state leaves what an opening leaves. -/
theorem State.commitTest_opensAs' (s : State) (h : s.round.state ≠ .idle) : s.round.OpensAs s.commitTest.round := by
  by_cases ho : s.round.state = .opened
  · exact s.commitTest_opensAs ho
  · rw [s.commitTest_fails (Or.inr (Or.inl ho))]
    exact .refl h

theorem State.openHeard_opensAs (s : State) (r : RoundRecord) (h : r.state = .opened) :
    r.OpensAs (s.openHeard r).round := by
  unfold State.openHeard
  have h₀ : (s.storeRound r).roundOpened.round = r := by simp
  have h₁ := State.answerOpening_opensAs (s.storeRound r).roundOpened (by rw [h₀]; exact h)
  rw [h₀] at h₁
  exact h₁.trans (State.commitTest_opensAs' _ h₁.state)

theorem State.openOwn_opensAs (s : State) : s.ownRoundRecord.OpensAs s.openOwn.round := by
  unfold State.openOwn
  dsimp only
  have h₀ : ((s.storeRound s.ownRoundRecord).offer (s.proposeFrame s.ownRoundRecord.number)).roundOpened.round
      = s.ownRoundRecord := by simp
  have h₁ := State.commitTest_opensAs
    ((s.storeRound s.ownRoundRecord).offer (s.proposeFrame s.ownRoundRecord.number)).roundOpened
    (by rw [h₀]; simp [State.ownRoundRecord])
  rw [h₀] at h₁
  exact h₁

/-- A node that is not ACTIVE opens a round as it is heard, and says nothing (R31, R52). -/
theorem State.openHeard_notActive (s : State) (r : RoundRecord) (h : s.isActive = false) :
    (s.openHeard r).round = r := by
  unfold State.openHeard
  have ha : (s.storeRound r).roundOpened.isActive = false := by
    have := (State.roundOpened_moves (s.storeRound r)).isActive
    rw [this]; simp [h]
  have hn : (s.storeRound r).roundOpened.answerOpening.round = r := by
    unfold State.answerOpening
    have hp : (s.storeRound r).roundOpened.proposalTest = false := by simp [State.proposalTest, ha]
    rw [hp]
    simp only [Bool.false_eq_true, if_false]
    split <;> simp
  have hm : (s.storeRound r).roundOpened.answerOpening.isActive = false := by
    unfold State.answerOpening
    have hp : (s.storeRound r).roundOpened.proposalTest = false := by simp [State.proposalTest, ha]
    rw [hp]
    simp only [Bool.false_eq_true, if_false]
    split <;> simp [ha]
  rw [State.commitTest_fails _ (Or.inl hm)]
  exact hn

end Sys2Proof.Machine
end

