-- ==== Sys2Proof/Laws/Peers.lean ====
section
/-! SUPPORT. What a change of a peer's entry does to the rest of the node: P, the commit test it may lead to, and the targets
(01 R17 to R20). -/
namespace Sys2Proof.Machine

/-! ## P -/

/-- Delivering P leaves it counted (R17, R18). -/
theorem State.deliverEligible_moves (s : State) (b : Bool) :
    ({ s with eligible := s.eligibleNow } : State).RoundMoves (s.deliverEligible b) := by
  unfold State.deliverEligible
  dsimp only
  split
  · exact State.commitTest_moves _
  · exact .refl _

theorem State.deliverEligible_counted (s : State) (b : Bool) : EligibleCounted (s.deliverEligible b) := by
  have h := s.deliverEligible_moves b
  unfold EligibleCounted
  rw [h.eligibleNow, h.eligible]
  rfl

theorem State.deliverEligible_life (s : State) (b : Bool) : (s.deliverEligible b).life = s.life := by
  unfold State.deliverEligible
  dsimp only
  split <;> [exact State.commitTest_life _; rfl]

/-- With P as it was and no signature state changed, nothing is delivered (R18). -/
theorem State.deliverEligible_quiet (s : State) (h : s.eligible = s.eligibleNow) : s.deliverEligible false = s := by
  have he : ({ s with eligible := s.eligibleNow } : State) = s := by rw [← h]
  unfold State.deliverEligible
  dsimp only
  rw [he]
  simp [h.symm]

/-- A node that is not ACTIVE only counts (R36). -/
theorem State.commitTest_idle (s : State) (h : s.isActive = false) : s.commitTest = s := by
  simp [State.commitTest, h]

theorem State.deliverEligible_notActive (s : State) (b : Bool) (h : s.isActive = false) :
    s.deliverEligible b = { s with eligible := s.eligibleNow } := by
  unfold State.deliverEligible
  dsimp only
  split
  · exact State.commitTest_idle _ h
  · rfl

/-- A record that is not OPEN is only counted for (R36, R44). -/
theorem State.deliverEligible_notOpen (s : State) (b : Bool) (h : s.round.state ≠ .opened) :
    s.deliverEligible b = { s with eligible := s.eligibleNow } := by
  unfold State.deliverEligible
  dsimp only
  split
  · exact State.commitTest_fails _ (Or.inr (Or.inl h))
  · rfl

/-! ## One entry -/

section
variable (s : State) (a : Station) (f : PeerEntry → PeerEntry)

/-- The entry changed, P counted, and the commitment and the recomputation of targets that may follow. -/
theorem State.changePeer_moves :
    ({ s.setPeer a (f (s.peer a)) with eligible := (s.setPeer a (f (s.peer a))).eligibleNow } : State).RoundMoves
      (s.changePeer a f) := by
  unfold State.changePeer
  dsimp only
  split
  · exact State.deliverEligible_moves _ _
  · exact (State.deliverEligible_moves _ _).trans (State.recomputeTargets_moves _)

theorem State.changePeer_life : (s.changePeer a f).life = s.life := by
  unfold State.changePeer
  dsimp only
  split <;> simp [State.deliverEligible_life]

theorem State.changePeer_counted : EligibleCounted (s.changePeer a f) := by
  have h := s.changePeer_moves a f
  unfold EligibleCounted
  rw [h.eligibleNow, h.eligible]
  rfl

/-- The entry of a station other than the node itself is what the change makes it. -/
theorem State.changePeer_peer (h : a ≠ s.own) : (s.changePeer a f).peer a = f (s.peer a) := by
  have := (s.changePeer_moves a f).others a h
  rw [this]
  exact State.peer_setPeer_self s a _

theorem State.changePeer_samePeersBut : s.SamePeersBut (s.changePeer a f) a := by
  intro b hb
  have h := (s.changePeer_moves a f).samePeersBut a b hb
  have hp : ({ s.setPeer a (f (s.peer a)) with eligible := (s.setPeer a (f (s.peer a))).eligibleNow } : State).peer b
      = s.peer b := State.peer_setPeer_ne s hb _
  rw [hp] at h
  exact h

theorem State.changePeer_frame :
    s.changePeer a f = { s with
      peers := (s.changePeer a f).peers
      eligible := (s.changePeer a f).eligible
      round := (s.changePeer a f).round
      shutdownLatch := (s.changePeer a f).shutdownLatch
      fanA := (s.changePeer a f).fanA
      fanB := (s.changePeer a f).fanB
      queue := (s.changePeer a f).queue } := by
  have h := (s.changePeer_moves a f).frame
  have he := (s.changePeer_moves a f).eligible
  rw [s.changePeer_life a f] at h
  rw [he]
  exact h

theorem State.changePeer_supervision : s.SameSupervision (s.changePeer a f) :=
  fun g => (s.changePeer_moves a f).supervision g

theorem State.changePeer_ageing : s.AgeingEffect (s.changePeer a f) a :=
  ⟨s.changePeer_frame a f, s.changePeer_samePeersBut a f, s.changePeer_counted a f, s.changePeer_supervision a f⟩

/-- A change that keeps what P and the effective demand read leaves the rest of the node as it was (R18, R20). -/
theorem State.changePeer_quiet (hp : (s.setPeer a (f (s.peer a))).eligibleNow = s.eligible)
    (hs : (f (s.peer a)).signatureState = (s.peer a).signatureState) :
    (s.changePeer a f).round = s.round ∧ (s.changePeer a f).queue = s.queue
      ∧ (s.changePeer a f).shutdownLatch = s.shutdownLatch := by
  have hq : (s.setPeer a (f (s.peer a))).deliverEligible
      (((s.setPeer a (f (s.peer a))).peer a).signatureState != (s.peer a).signatureState)
      = s.setPeer a (f (s.peer a)) := by
    rw [State.peer_setPeer_self, hs]
    simp only [bne_self_eq_false]
    exact State.deliverEligible_quiet _ hp.symm
  unfold State.changePeer
  dsimp only
  rw [hq]
  split <;> exact ⟨rfl, rfl, rfl⟩

/-- A node that is not ACTIVE commits nothing when an entry changes (R36, R52). -/
theorem State.changePeer_notActive (h : s.isActive = false) :
    (s.changePeer a f).round = s.round ∧ (s.changePeer a f).queue = s.queue
      ∧ (s.changePeer a f).shutdownLatch = s.shutdownLatch := by
  unfold State.changePeer
  dsimp only
  rw [State.deliverEligible_notActive _ _ (by simpa using h)]
  split <;> exact ⟨rfl, rfl, rfl⟩

/-- A record that is not OPEN is left as it is when an entry changes (R36, R44). -/
theorem State.changePeer_notOpen (h : s.round.state ≠ .opened) :
    (s.changePeer a f).round = s.round ∧ (s.changePeer a f).queue = s.queue
      ∧ (s.changePeer a f).shutdownLatch = s.shutdownLatch := by
  unfold State.changePeer
  dsimp only
  rw [State.deliverEligible_notOpen (s.setPeer a (f (s.peer a))) _ h]
  split <;> exact ⟨rfl, rfl, rfl⟩

end

end Sys2Proof.Machine
end

