-- ==== Sys2Proof/Laws/Hearing.lean ====
section
/-! SUPPORT. What a frame heard from another station does: delivery, the refresh, and the round frames (01, 02, 06). -/
namespace Sys2Proof.Machine

/-! ## Delivery -/

/-- A valid frame the node hears is delivered once the receiver is in WAIT (R117, R138). -/
theorem State.receive_hears {s : State} {a : Station} (h : s.Hears a) (deliver : State → State) :
    s.receive a true deliver = deliver (s.toWait true) := by
  obtain ⟨h₁, h₂, h₃, h₄⟩ := h
  have ho : s.isOwn a = false := by simp [State.isOwn, h₄]
  simp [State.receive, h₁, h₂, h₃, ho]

/-- A frame that is not delivered moves the receiver to WAIT and nothing else (R116, R138, R139). -/
theorem State.receive_undelivered {s : State} (a : Station) (v : Bool) (deliver : State → State)
    (hr : s.link.receiver = .receiving) (h : s.link.ownOnWire = true ∨ s.running = false ∨ v = false) :
    s.receive a v deliver = s.toWait true := by
  rcases h with h | h | h <;> simp [State.receive, hr, h]

/-- A valid frame under the node's own address is a conflict (R5, R140). -/
theorem State.receive_own {s : State} {a : Station} (deliver : State → State) (hr : s.link.receiver = .receiving)
    (hw : s.link.ownOnWire = false) (hn : s.running = true) (ho : s.isOwn a = true) :
    s.receive a true deliver = (s.toWait true).addressConflict := by
  simp [State.receive, hr, hw, hn, ho]

/-! ## A frame taken on top of a change of its sender's entry -/

/-- What the Round Controller does after the Peer Table keeps the Peer Table's frame. -/
theorem State.AgeingEffect.andRound {s t u : State} {a : Station} (h : s.AgeingEffect t a) (ha : a ≠ s.own)
    (hr : t.RoundMoves u) :
    (u = { s with
      peers := u.peers
      eligible := u.eligible
      round := u.round
      shutdownLatch := u.shutdownLatch
      fanA := u.fanA
      fanB := u.fanB
      queue := u.queue
      life := { s.life with leavePending := u.life.leavePending } })
      ∧ s.SamePeersBut u a ∧ u.eligible = u.eligibleNow ∧ s.SameSupervision u ∧ u.peer a = t.peer a := by
  obtain ⟨h₁, h₂, h₃, h₄⟩ := h
  have hown : t.own = s.own := by rw [h₁]; rfl
  have hlife : t.life = s.life := by rw [h₁]
  refine ⟨?_, ?_, ?_, h₄.trans hr.supervision, hr.others a (by rw [hown]; exact ha)⟩
  · have hf := hr.frame
    rw [h₁] at hf
    rw [hr.eligible]
    exact hf
  · intro b hb
    have hx := h₂ b hb
    have hy := hr.samePeersBut a b hb
    rw [hown] at hy
    rw [hy, hx]
    split <;> rfl
  · rw [hr.eligible, hr.eligibleNow]
    exact h₃

/-- The receiver in WAIT at the end of an end mark. -/
theorem State.toWait_true (s : State) :
    s.toWait true = { s with link := { s.link with receiver := .wait, afterEndMark := true, ownOnWire := false } } := rfl

/-- A delivery that is a change of the sender's entry and then something of the Round Controller's. -/
theorem State.hearing_of {s u : State} {a : Station} (ha : a ≠ s.own) (f : PeerEntry → PeerEntry)
    (hr : ((s.toWait true).changePeer a f).RoundMoves u) :
    s.HearingEffect u a ∧ u.peer a = f (s.peer a) := by
  have ha' : a ≠ (s.toWait true).own := ha
  obtain ⟨h₁, h₂, h₃, h₄, h₅⟩ := ((s.toWait true).changePeer_ageing a f).andRound ha' hr
  refine ⟨⟨h₁, ?_, h₃, h₄⟩, ?_⟩
  · intro b hb
    exact h₂ b hb
  · rw [h₅]
    exact (s.toWait true).changePeer_peer a f ha'

/-! ## The refresh (R6) -/

/-- A refresh that finds the entry PRESENT leaves P as it was. -/
theorem State.countsInP_refresh (s : State) (a : Station) (h : (s.peer a).presence = .present) :
    (s.setPeer a (s.refreshed (s.peer a))).eligibleNow = s.eligibleNow := by
  have hc : (s.setPeer a (s.refreshed (s.peer a))).countsInP = s.countsInP := by
    funext b
    by_cases hb : b = a
    · subst hb
      have hp := State.peer_setPeer_self s b (s.refreshed (s.peer b))
      unfold State.countsInP
      rw [hp]
      simp [State.refreshed, PeerEntry.refresh, h, State.isOwn]
    · unfold State.countsInP
      rw [State.peer_setPeer_ne s hb]
      simp [State.isOwn]
  unfold State.eligibleNow
  rw [hc]
  rfl

/-- A quiet refresh leaves the record, the queue and the latch as they were. -/
theorem State.refreshPeer_quiet {s : State} {a : Station} (h : s.RefreshIsQuiet a) :
    (s.refreshPeer a).round = s.round ∧ (s.refreshPeer a).queue = s.queue
      ∧ (s.refreshPeer a).shutdownLatch = s.shutdownLatch := by
  rcases h with h | ⟨h₁, h₂⟩
  · exact s.changePeer_notActive a _ h
  · refine s.changePeer_quiet a _ ?_ rfl
    rw [State.countsInP_refresh s a h₂]
    exact h₁.symm

/-- The refresh keeps every signature state. -/
theorem State.refreshPeer_signatureState (s : State) (a b : Station) :
    ((s.refreshPeer a).peer b).signatureState = (s.peer b).signatureState := by
  have h := (s.changePeer_moves a s.refreshed).signatureState b
  refine Eq.trans h ?_
  change ((s.setPeer a _).peer b).signatureState = _
  by_cases hb : b = a
  · subst hb; rw [State.peer_setPeer_self]; rfl
  · rw [State.peer_setPeer_ne s hb]

/-- A quiet refresh leaves P as it was in an ACTIVE node. -/
theorem State.refreshPeer_eligible {s : State} {a : Station} (hs : EligibleCounted s)
    (hp : (s.peer a).presence = .present) : (s.refreshPeer a).eligible = s.eligible := by
  have h := (s.changePeer_moves a s.refreshed).eligible
  refine Eq.trans h ?_
  change (s.setPeer a _).eligibleNow = _
  rw [State.countsInP_refresh s a hp]
  exact hs.symm

/-! ## Round frames (R16, R23) -/

theorem State.viaRound_moves (s : State) (a : Station) (f : State → State) (hf : ∀ t : State, t.RoundMoves (f t)) :
    (s.refreshPeer a).RoundMoves (s.viaRound a f) := by
  unfold State.viaRound
  dsimp only
  split
  · exact hf _
  · exact .refl _

/-- A round frame from a MISMATCH station is ignored after the refresh (R23). -/
theorem State.viaRound_ignored {s : State} {a : Station} (f : State → State)
    (h : (s.peer a).signatureState = .mismatch) : s.viaRound a f = s.refreshPeer a := by
  simp [State.viaRound, State.roundTrafficCounts, State.refreshPeer_signatureState, h]

theorem State.viaRound_counts {s : State} {a : Station} (f : State → State)
    (h : (s.peer a).signatureState ≠ .mismatch) : s.viaRound a f = f (s.refreshPeer a) := by
  simp [State.viaRound, State.roundTrafficCounts, State.refreshPeer_signatureState, h]

/-- What the nine kinds do once delivered: a change of the sender's entry, then something of the Round Controller's, but for
an ACK. -/
theorem State.peerReports_moves (s : State) (a : Station) (f : StatusFields) :
    (s.changePeer a fun e => (s.refreshed e).applyStatus s.cfg.signature f).RoundMoves (s.peerReports a f) := by
  unfold State.peerReports
  dsimp only
  split
  · exact State.hearStatusRound_moves _ _ _
  · exact .refl _

end Sys2Proof.Machine
end

