-- ==== Sys2Proof/Laws/Alike.lean ====
section
/-! SUPPORT. Two states that agree on all the Round Controller reads: its operations take them to states that agree again, and
each of them leaves what the round rules say (02; `State.opening` to `State.verdictTurns`). -/
namespace Sys2Proof.Machine

/-- The states agree on all that the commit test reads and changes of the round, the queue, the latch and the flag. -/
structure State.Tallied (s t : State) : Prop where
  now : s.now = t.now
  image : s.image = t.image
  nodeState : s.life.nodeState = t.life.nodeState
  eligible : s.eligible = t.eligible
  signatureState : ∀ a, (s.peer a).signatureState = (t.peer a).signatureState
  round : s.round = t.round
  queue : s.queue = t.queue
  latch : s.shutdownLatch = t.shutdownLatch
  flag : s.life.leavePending = t.life.leavePending

/-- The states agree on all that the Round Controller reads but the standing verdict. -/
structure State.Alike (s t : State) : Prop extends s.Tallied t where
  channels : s.channels = t.channels
  inFlight : s.link.inFlight = t.link.inFlight

variable {s t u : State}

theorem State.Tallied.roundAs (h : s.Tallied t) : s.RoundAs t := ⟨h.round, h.queue, h.latch, h.flag⟩

theorem State.Tallied.refl (s : State) : s.Tallied s := ⟨rfl, rfl, rfl, rfl, fun _ => rfl, rfl, rfl, rfl, rfl⟩

theorem State.Tallied.trans (h : s.Tallied t) (k : t.Tallied u) : s.Tallied u :=
  ⟨h.now.trans k.now, h.image.trans k.image, h.nodeState.trans k.nodeState, h.eligible.trans k.eligible,
    fun a => (h.signatureState a).trans (k.signatureState a), h.round.trans k.round, h.queue.trans k.queue,
    h.latch.trans k.latch, h.flag.trans k.flag⟩

theorem State.Alike.refl (s : State) : s.Alike s := ⟨.refl s, rfl, rfl⟩

theorem State.Alike.trans (h : s.Alike t) (k : t.Alike u) : s.Alike u :=
  ⟨h.toTallied.trans k.toTallied, h.channels.trans k.channels, h.inFlight.trans k.inFlight⟩

theorem State.Tallied.cfg (h : s.Tallied t) : s.cfg = t.cfg := by simp [State.cfg, h.image]

theorem State.Tallied.own (h : s.Tallied t) : s.own = t.own := by simp [State.own, h.cfg]

theorem State.Tallied.isActive (h : s.Tallied t) : s.isActive = t.isActive := by simp [State.isActive, h.nodeState]

theorem State.Tallied.concurring (h : s.Tallied t) : s.concurring = t.concurring := by
  simp [State.concurring, h.round, h.signatureState]

theorem State.Tallied.concurCount (h : s.Tallied t) : s.concurCount = t.concurCount := by
  simp [State.concurCount, State.ownConcurs, h.concurring, h.isActive, h.round]

theorem State.Tallied.quorum (h : s.Tallied t) : s.quorum = t.quorum := by simp [State.quorum, h.cfg, h.eligible]

theorem State.Tallied.tallyRecord (h : s.Tallied t) : s.tallyRecord = t.tallyRecord := by
  simp [State.tallyRecord, State.ownConcurs, h.concurring, h.isActive, h.round, h.now, h.cfg, h.own]

theorem State.Alike.watch (h : s.Alike t) (c : Channel) : s.watch c = t.watch c := by simp [State.watch, h.channels]

theorem State.Alike.isCritical (h : s.Alike t) : s.isCritical = t.isCritical := by
  funext c; simp [State.isCritical, h.watch]

theorem State.Alike.nodeCritical (h : s.Alike t) : s.nodeCritical = t.nodeCritical := by
  simp [State.nodeCritical, h.isCritical]

theorem State.Alike.reasonChannel (h : s.Alike t) : s.reasonChannel = t.reasonChannel := by
  simp [State.reasonChannel, h.isCritical]

theorem State.Alike.reasonReading (h : s.Alike t) : s.reasonReading = t.reasonReading := by
  simp [State.reasonReading, h.reasonChannel, h.watch, State.channelCfg, h.cfg]

/-- The commit test takes states that agree to states that agree (R36, R37, R45). -/
theorem State.Tallied.commitTest (h : s.Tallied t) : s.commitTest.Tallied t.commitTest := by
  have hs := s.commitTest_moves
  have ht := t.commitTest_moves
  have base : s.commitTest.round = t.commitTest.round ∧ s.commitTest.queue = t.commitTest.queue
      ∧ s.commitTest.shutdownLatch = t.commitTest.shutdownLatch := by
    by_cases hc : s.isActive = true ∧ s.round.state = .opened ∧ s.quorum ≤ s.concurCount
    · obtain ⟨x, hx, h₁, h₂, h₃⟩ := s.commitTest_commits hc.1 hc.2.1 hc.2.2
      obtain ⟨y, hy, k₁, k₂, k₃⟩ := t.commitTest_commits (h.isActive ▸ hc.1) (h.round ▸ hc.2.1)
        (h.quorum ▸ h.concurCount ▸ hc.2.2)
      have hxy : x = y := by
        rw [h.tallyRecord, hy] at hx
        exact (Option.some.inj hx).symm
      rw [h₁, h₂, h₃, k₁, k₂, k₃, hxy, h.round, h.queue, h.latch, h.cfg, h.now]
      exact ⟨rfl, rfl, rfl⟩
    · have hn : s.isActive = false ∨ s.round.state ≠ .opened ∨ s.concurCount < s.quorum := by
        by_cases h₁ : s.isActive = true
        · by_cases h₂ : s.round.state = .opened
          · exact Or.inr (Or.inr (Nat.lt_of_not_le fun h₃ => hc ⟨h₁, h₂, h₃⟩))
          · exact Or.inr (Or.inl h₂)
        · exact Or.inl (by simpa using h₁)
      rw [s.commitTest_fails hn,
        t.commitTest_fails (by rw [← h.isActive, ← h.round, ← h.quorum, ← h.concurCount]; exact hn)]
      exact ⟨h.round, h.queue, h.latch⟩
  constructor
  case now => rw [hs.now, ht.now, h.now]
  case image => rw [hs.image, ht.image, h.image]
  case nodeState => rw [hs.nodeState, ht.nodeState, h.nodeState]
  case eligible => rw [hs.eligible, ht.eligible, h.eligible]
  case signatureState => intro a; rw [hs.signatureState, ht.signatureState, h.signatureState]
  case round => exact base.1
  case queue => exact base.2.1
  case latch => exact base.2.2
  case flag => rw [State.commitTest_life, State.commitTest_life, h.flag]

theorem State.Alike.commitTest (h : s.Alike t) : s.commitTest.Alike t.commitTest := by
  have hs := s.commitTest_moves
  have ht := t.commitTest_moves
  exact ⟨h.toTallied.commitTest, by rw [hs.channels, ht.channels, h.channels], by rw [hs.link, ht.link, h.inFlight]⟩

/-- A commit test on a record that is not open changes nothing, so a second one changes nothing. -/
theorem State.commitTest_twice (s : State) : s.commitTest.commitTest = s.commitTest := by
  by_cases h : s.isActive = true ∧ s.round.state = .opened ∧ s.quorum ≤ s.concurCount
  · obtain ⟨x, _, h₁, _, _⟩ := s.commitTest_commits h.1 h.2.1 h.2.2
    apply State.commitTest_fails
    refine Or.inr (Or.inl ?_)
    rw [h₁]
    simp only
    split <;> simp
  · have : s.commitTest = s := by unfold State.commitTest; rw [if_neg h]
    rw [this, this]

/-- Storing a record (R47). -/
theorem State.Alike.storeRound (h : s.Alike t) (r : RoundRecord) : (s.storeRound r).Alike { t with round := r } := by
  have hf := s.storeRound_frame r
  rw [hf]
  exact ⟨⟨h.now, h.image, h.nodeState, h.eligible, h.signatureState, rfl, h.queue, h.latch, h.flag⟩, h.channels, h.inFlight⟩

/-- A record stored and the queue changed at once. -/
theorem State.Alike.setQueue (h : s.Alike t) (f : List Pending → List Pending) :
    ({ s with queue := f s.queue } : State).Alike { t with queue := f t.queue } :=
  ⟨⟨h.now, h.image, h.nodeState, h.eligible, h.signatureState, h.round, congrArg f h.queue, h.latch, h.flag⟩,
    h.channels, h.inFlight⟩

/-- A round frame offered (R48, R144). -/
theorem State.Alike.queuing (h : s.Alike t) (f : Pending)
    (hk : f.kind = .propose ∨ f.kind = .vote ∨ f.kind = .withdraw ∨ f.kind = .commit) :
    (s.offer f).Alike (t.queuing f) := by
  have ha : s.life.nodeState.admits f.kind = t.isActive := by
    rw [h.nodeState]
    unfold State.isActive
    rcases hk with hk | hk | hk | hk <;> rw [hk] <;> cases t.life.nodeState <;> rfl
  have he : enqueue s.queue f = withoutKind s.queue f.kind ++ [f] := by
    cases f <;> simp [FrameOf.kind] at hk <;> rfl
  unfold State.offer State.queuing
  rw [ha, he, h.queue]
  split
  · exact ⟨⟨h.now, h.image, h.nodeState, h.eligible, h.signatureState, h.round, rfl, h.latch, h.flag⟩, h.channels,
      h.inFlight⟩
  · exact h

theorem withoutKind_absent {q : List Pending} {k : FrameKind} (h : pendingKind q k = false) : withoutKind q k = q := by
  unfold withoutKind
  rw [List.filter_eq_self]
  intro f hf
  simpa using pendingKind_false h f hf

/-- A round opens with its record, and a pending LEAVE is taken back (R24, R167). -/
theorem State.opening_spec (s : State) (r : RoundRecord) : ({ s with round := r } : State).roundOpened = s.opening r := by
  unfold State.roundOpened State.opening
  by_cases hl : s.life.leavePending = true
  · by_cases hp : pendingKind s.queue .leave = true
    · have hq : (s.queue.filter fun f => !(f.kind == FrameKind.leave)) = withoutKind s.queue .leave := rfl
      cases hi : s.link.inFlight with
      | none => simp [hl, hp, State.purge, hq]
      | some f =>
        cases f <;> simp [hl, hp, State.purge, hq]
        rw [← hl]
    · have hp' : pendingKind s.queue .leave = false := by simpa using hp
      simp [hl, hp', withoutKind_absent hp']
      rw [← hl]
  · have hl' : s.life.leavePending = false := by simpa using hl
    simp [hl']
    rw [← hl']

theorem State.Alike.openingOf (h : s.Alike t) (r : RoundRecord) : (s.opening r).Alike (t.opening r) :=
  ⟨⟨h.now, h.image, h.nodeState, h.eligible, h.signatureState, rfl, by simp [State.opening, h.queue, h.flag], h.latch,
    by simp [State.opening, h.queue, h.flag, h.inFlight]⟩, h.channels, h.inFlight⟩

theorem State.roundOpened_opening (s : State) : s.roundOpened = s.opening s.round := State.opening_spec s s.round

theorem State.Alike.opening (h : s.Alike t) (r : RoundRecord) : (s.storeRound r).roundOpened.Alike (t.opening r) := by
  have h₁ := (h.storeRound r).openingOf r
  rw [State.roundOpened_opening, State.storeRound_round]
  exact h₁

/-- The node co-proposes, up to the commit test (R25). -/
theorem State.Alike.coPropose (h : s.Alike t) :
    s.coPropose.Alike (if t.round.ownVerdict = some .concur then t.coProposing else t.coProposing.commitTest) := by
  have h₁ := (((h.storeRound { s.round with
      proposers := insertMember s.round.proposers s.own, ownVerdict := some .concur }).setQueue
      (·.filter fun f => !(f == .withdraw s.round.number))).queuing (s.proposeFrame s.round.number)
      (by simp [State.proposeFrame, FrameOf.kind]))
  have h₂ : State.queuing { { t with round := { s.round with
      proposers := insertMember s.round.proposers s.own, ownVerdict := some .concur } } with
      queue := t.queue.filter fun f => !(f == .withdraw s.round.number) } (s.proposeFrame s.round.number)
      = t.coProposing := by
    unfold State.coProposing State.proposeFrame
    rw [h.round, h.own, h.reasonChannel, h.reasonReading]
    rfl
  rw [h₂] at h₁
  unfold State.coPropose
  dsimp only
  rw [← h.round]
  split
  · exact h₁
  · exact h₁.commitTest

/-- The node answers an opening, and the commit test follows (R31, R36). -/
theorem State.Alike.answering (h : s.Alike t) (ho : t.round.state = .opened) (hv : t.round.ownVerdict.isSome = true) :
    s.answerOpening.commitTest.Alike t.answering.commitTest := by
  have hp : s.proposalTest = decide (t.isActive = true ∧ t.nodeCritical = true
      ∧ member t.round.proposers t.own = false) := by
    rw [Bool.eq_iff_iff]
    simp [State.proposalTest, h.isActive, h.nodeCritical, h.round, h.own, ho, and_assoc]
  unfold State.answerOpening State.answering
  rw [hp]
  by_cases hc : t.isActive = true ∧ t.nodeCritical = true ∧ member t.round.proposers t.own = false
  · rw [if_pos (by simpa using hc), if_pos hc]
    have h₁ := h.coPropose
    split at h₁
    · exact h₁.commitTest
    · have h₂ := h₁.commitTest
      rw [State.commitTest_twice] at h₂
      exact h₂
  · rw [if_neg (by simpa using hc), if_neg hc, h.round]
    obtain ⟨v, hv⟩ := Option.isSome_iff_exists.mp hv
    rw [hv]
    exact (h.queuing _ (by simp [FrameOf.kind])).commitTest

/-- The opening of a heard round (R27, R30, R31). -/
theorem State.Alike.openHeard (h : s.Alike t) (r : RoundRecord) (ho : r.state = .opened)
    (hv : r.ownVerdict.isSome = true) : (s.openHeard r).Alike (t.opening r).answering.commitTest :=
  (h.opening r).answering ho hv

theorem State.Alike.heardRecord (h : s.Alike t) (hv : s.standing = t.standing) (r : Byte) (p : StationSet) (a : Station) (v : Option Verdict)
    (x : Option Reason) : s.heardRoundRecord r p a v x = t.heardRecord r p a v x := by
  simp [State.heardRoundRecord, State.heardRecord, h.round, hv, h.now, h.cfg, StartImage.roundTimeout]

theorem State.Alike.proposedBy (h : s.Alike t) (hv : s.standing = t.standing) (a : Station) (r : Byte) (c : Channel)
    (x : HalfDegrees) : (s.openFromPropose a r c x).Alike (t.proposedBy a r c x) := by
  unfold State.openFromPropose State.proposedBy
  rw [h.heardRecord hv]
  exact h.openHeard _ rfl rfl

theorem State.Alike.shownOpenBy (h : s.Alike t) (hv : s.standing = t.standing) (a : Station) (f : StatusFields) :
    (s.openFromStatus a f).Alike (t.shownOpenBy a f) := by
  have hc : (removeMember f.proposers s.own = 0 ∧ ¬ (s.isActive ∧ s.nodeCritical))
      ↔ (removeMember f.proposers t.own = 0 ∧ (t.isActive = false ∨ t.nodeCritical = false)) := by
    rw [h.own, h.isActive, h.nodeCritical]
    cases t.isActive <;> cases t.nodeCritical <;> simp
  unfold State.openFromStatus State.shownOpenBy
  dsimp only
  by_cases hd : removeMember f.proposers t.own = 0 ∧ (t.isActive = false ∨ t.nodeCritical = false)
  · rw [if_pos (hc.mpr hd), if_pos hd]
    exact h
  · rw [if_neg (fun k => hd (hc.mp k)), if_neg hd, h.heardRecord hv, h.own]
    exact h.openHeard _ rfl rfl

/-- Abandoning leaves the standing verdict alone. -/
theorem State.abandon_standing (h : s.standing = t.standing) : s.abandon.standing = t.abandoning.standing := by
  rw [s.abandon_moves.standing, h]
  rfl

/-- The round is abandoned (R40). -/
theorem State.Alike.abandoning (h : s.Alike t) : s.abandon.Alike t.abandoning := by
  have h₁ := (h.storeRound s.round.abandoned).setQueue (·.filter fun f => !isProposeOrVote f)
  have h₂ : ({ { t with round := s.round.abandoned } with queue := t.queue.filter fun f => !isProposeOrVote f } : State)
      = t.abandoning := by
    unfold State.abandoning RoundRecord.abandoned
    rw [h.round]
    rfl
  rw [h₂] at h₁
  exact h₁

/-- A verdict is recorded (R32). -/
theorem State.Alike.recording (h : s.Alike t) (a : Station) (v : Verdict) : (s.recordVote a v).Alike (t.recording a v) := by
  have h₁ := (h.storeRound { s.round with votes := recordVerdict s.round.votes a v }).commitTest
  rw [h.round] at h₁
  unfold State.recordVote
  rw [h.round]
  exact h₁

/-- A commitment is adopted (R42, R43). -/
theorem State.Alike.adopting (h : s.Alike t) (r : Byte) (x : Option StationSet) : (s.adopt r x).Tallied (t.adopting r x) := by
  have hs := s.adopt_moves r x
  obtain ⟨h₁, h₂, h₃⟩ := s.adopt_spec r x
  constructor
  case now => rw [hs.now, h.now]; rfl
  case image => rw [hs.image, h.image]; rfl
  case nodeState => rw [hs.nodeState, h.nodeState]; rfl
  case eligible => rw [hs.eligible, h.eligible]; rfl
  case signatureState => intro a; rw [hs.signatureState, h.signatureState]; rfl
  case round =>
    rw [h₁]
    unfold State.adoptedRecord State.adopting
    rw [h.round, h.cfg, h.now]
  case queue => rw [h₃, h.queue]; rfl
  case latch => rw [h₂, h.latch, h.cfg]; rfl
  case flag =>
    unfold State.adopt
    rw [State.graceAtOnce_life, State.purge_life, State.storeRound_life, h.flag]
    rfl

/-- The queue of a node that opens a round and queues its PROPOSE, in either order (R24, R167). -/
theorem State.queuing_opening (s : State) (r : RoundRecord) (f : Pending) (hf : f.kind = .propose) :
    (({ s with round := r } : State).queuing f).opening r = (s.opening r).queuing f := by
  have hk : ∀ q : List Pending, pendingKind (withoutKind q f.kind ++ [f]) .leave = pendingKind q .leave := by
    intro q
    rw [hf]
    simp only [pendingKind, withoutKind, List.any_append, List.any_filter, List.any_cons, List.any_nil, Bool.or_false, hf]
    have : (fun x : Pending => x.kind != .propose && x.kind == .leave) = fun x => x.kind == .leave := by
      funext x; cases x.kind <;> rfl
    rw [this]
    simp
  have hw : ∀ q : List Pending, withoutKind (withoutKind q f.kind ++ [f]) .leave
      = withoutKind (withoutKind q .leave) f.kind ++ [f] := by
    intro q
    simp only [withoutKind, List.filter_append, List.filter_filter, hf, List.filter_cons, List.filter_nil]
    simp [Bool.and_comm]
  unfold State.queuing State.opening State.isActive
  dsimp only
  by_cases ha : (s.life.nodeState == NodeState.active) = true
  · simp only [ha, if_true, hk, hw]
    by_cases hl : s.life.leavePending = true <;> simp [hl]
  · simp only [ha, Bool.false_eq_true, if_false]

/-- The node opens a round of its own (R24, R26). -/
theorem State.Alike.proposing (h : s.Alike t) : s.openOwn.Alike t.proposing := by
  have hr : s.ownRoundRecord = t.ownRoundRecord := by
    simp [State.ownRoundRecord, h.round, h.own, h.reasonChannel, h.reasonReading, h.now, h.cfg]
  have hf : s.proposeFrame t.ownRoundRecord.number = t.proposeFrame t.ownRoundRecord.number := by
    simp [State.proposeFrame, h.reasonChannel, h.reasonReading]
  have h₁ := ((h.storeRound t.ownRoundRecord).queuing (t.proposeFrame t.ownRoundRecord.number)
    (by simp [State.proposeFrame, FrameOf.kind])).openingOf t.ownRoundRecord
  rw [State.queuing_opening _ _ _ rfl] at h₁
  unfold State.openOwn
  dsimp only
  rw [hr, hf, State.roundOpened_opening, State.offer_round, State.storeRound_round]
  exact h₁.commitTest

/-- The proposal test is made on an IDLE record (R24). -/
theorem State.Alike.proposesIdle (h : s.Alike t) (hi : t.round.state = .idle) :
    s.propose.Alike (if t.isActive = true ∧ t.nodeCritical = true then t.proposing else t) := by
  have hp : s.proposalTest = (t.isActive && t.nodeCritical) := by
    rw [State.proposalTest_idle s (by rw [h.round]; exact hi), h.isActive, h.nodeCritical]
  unfold State.propose
  rw [hp, h.round, hi]
  by_cases hc : t.isActive = true ∧ t.nodeCritical = true
  · rw [if_pos hc, if_pos (by simp [hc])]
    exact h.proposing
  · rw [if_neg hc, if_neg (by simpa using hc)]
    exact h

/-- Node critical begins (R24, R25). -/
theorem State.Alike.criticalBegins (h : s.Alike t) (hc : t.nodeCritical = true) : s.propose.Alike t.criticalBegins := by
  have hp : s.proposalTest = (t.isActive && !(t.round.state == .opened && member t.round.proposers t.own)) := by
    simp [State.proposalTest, h.isActive, h.nodeCritical, hc, h.round, h.own]
  unfold State.propose State.criticalBegins
  rw [hp, h.round]
  by_cases ha : t.isActive = true
  · cases hst : t.round.state with
    | idle => simpa [ha] using h.proposing
    | opened =>
      cases hm : member t.round.proposers t.own
      · simpa [ha, hm] using h.coPropose
      · simpa [ha, hm] using h
    | committed => simpa [ha] using h
    | halted => simpa [ha] using h
  · simpa [ha] using h

/-- Node critical ends (R38). -/
theorem State.Alike.criticalEnds (h : s.Alike t) (hc : t.nodeCritical = false) : s.withdrawOwn.Alike t.criticalEnds := by
  unfold State.withdrawOwn State.criticalEnds
  rw [h.round, h.own]
  by_cases ho : t.round.state = .opened ∧ member t.round.proposers t.own = true
  · rw [if_pos ho, if_pos ho]
    have h₁ := (h.setQueue fun q => q.filter fun f => !(f.kind == .propose)).queuing (.withdraw t.round.number)
      (by simp [FrameOf.kind])
    have hq : ({ t with queue := t.queue.filter fun f => !(f.kind == .propose) } : State)
      = { t with queue := withoutKind t.queue .propose } := rfl
    rw [hq] at h₁
    generalize hx : State.queuing ({ t with queue := withoutKind t.queue .propose } : State) (.withdraw t.round.number) = x
      at h₁ ⊢
    have hxr : x.round = t.round := by subst hx; unfold State.queuing; split <;> rfl
    have hxc : x.nodeCritical = false := by subst hx; rw [← hc]; unfold State.queuing; split <;> rfl
    unfold State.dropProposer
    dsimp only
    have hsr : (State.offer (.withdraw t.round.number) (State.purge (fun f => f.kind == FrameKind.propose) s)).round
        = t.round := by simp [h.round]
    rw [hsr]
    by_cases he : removeMember t.round.proposers t.own = 0
    · rw [if_pos he, if_pos he]
      have h₂ := h₁.abandoning.proposesIdle rfl
      rw [if_neg] at h₂
      · exact h₂
      · rintro ⟨_, hn⟩
        have : x.abandoning.nodeCritical = x.nodeCritical := rfl
        rw [this, hxc] at hn
        cases hn
    · rw [if_neg he, if_neg he, hxr]
      exact h₁.storeRound _
  · rw [if_neg ho, if_neg ho]
    exact h

/-- The standing verdict has turned (R34, R87). -/
theorem State.Alike.verdictTurns (h : s.Alike t) (before : Verdict) (hb : before ≠ t.standing) :
    (s.verdictChanged t.standing).Alike (t.verdictTurns before) := by
  unfold State.verdictChanged State.verdictTurns
  rw [h.round]
  have hd : (t.round.state = .opened ∧ t.standing = .concur ∧ t.round.ownVerdict = some .refuse)
      ↔ (before = .refuse ∧ t.standing = .concur ∧ t.round.state = .opened ∧ t.round.ownVerdict = some .refuse) := by
    revert hb
    cases before <;> cases t.standing <;> simp
  by_cases hc : t.round.state = .opened ∧ t.standing = .concur ∧ t.round.ownVerdict = some .refuse
  · rw [if_pos hc, if_pos (hd.mp hc)]
    exact ((h.storeRound { t.round with ownVerdict := some .concur }).queuing (.vote t.round.number .concur)
      (by simp [FrameOf.kind])).commitTest
  · rw [if_neg hc, if_neg (fun k => hc (hd.mpr k))]
    exact h

/-- P is recomputed, and a change of it delivered (R17, R18). -/
theorem State.Alike.counting (h : s.Alike t) {p : Nat} (hp : s.eligibleNow = p) :
    (s.deliverEligible false).Alike (t.counting p) := by
  have hc : ({ s with eligible := s.eligibleNow } : State).Alike { t with eligible := p } :=
    ⟨⟨h.now, h.image, h.nodeState, hp, h.signatureState, h.round, h.queue, h.latch, h.flag⟩, h.channels, h.inFlight⟩
  unfold State.deliverEligible State.counting
  dsimp only
  by_cases he : p = t.eligible
  · have ht : ({ t with eligible := p } : State) = t := by rw [he]
    rw [ht] at hc
    rw [if_pos he, if_neg (by rw [hp, h.eligible, he]; simp)]
    exact hc
  · rw [if_neg he, if_pos (Or.inl (by rw [hp, h.eligible]; exact he))]
    exact hc.commitTest

/-- A change of P leaves an open record only as it was. -/
theorem State.counting_open (t : State) (p : Nat) (ho : (t.counting p).round.state = .opened) :
    (t.counting p).round = t.round := by
  unfold State.counting at ho ⊢
  split
  · rfl
  · rename_i he
    rw [if_neg he] at ho
    generalize hx : ({ t with eligible := p } : State) = x at ho ⊢
    have hr : x.round = t.round := by rw [← hx]
    by_cases hc : x.isActive = true ∧ x.round.state = .opened ∧ x.quorum ≤ x.concurCount
    · obtain ⟨_, _, h₁, _, _⟩ := x.commitTest_commits hc.1 hc.2.1 hc.2.2
      rw [h₁] at ho
      simp only at ho
      split at ho <;> cases ho
    · unfold State.commitTest
      rw [if_neg hc, hr]

/-- The Round Controller takes the entry into ACTIVE (R53). -/
theorem State.Alike.entering (h : s.Alike t) (ha : t.isActive = true)
    (hv : t.round.state = .opened → t.round.ownVerdict.isSome = true) : s.roundEntersActive.Alike t.entering := by
  unfold State.roundEntersActive State.entering
  rw [h.round]
  cases hs : t.round.state with
  | idle =>
    have h₁ := h.proposesIdle hs
    simpa [ha] using h₁
  | opened => simpa using h.answering hs (hv hs)
  | committed => simpa using h
  | halted => simpa using h

/-- The entry into ACTIVE and the change of P it causes, in the order taken (R18, R53, R155; log 6). -/
theorem State.Alike.takeEntry (h : s.Alike t) (ha : t.isActive = true)
    (hv : t.round.state = .opened → t.round.ownVerdict.isSome = true) (b : Bool) :
    (s.takeEntry b).Alike (if b then t.entering.counting s.eligibleNow else (t.counting s.eligibleNow).entering) := by
  unfold State.takeEntry
  cases b
  · have h₁ := h.counting rfl
    refine h₁.entering ?_ fun ho => ?_
    · rw [← h₁.isActive, ← ha, ← h.isActive, (s.deliverEligible_moves false).isActive]
      rfl
    · have hr := t.counting_open s.eligibleNow ho
      rw [hr] at ho ⊢
      exact hv ho
  · exact (h.entering ha hv).counting (State.roundEntersActive_moves s).eligibleNow

/-- An entry has changed, and the commit test it leads to has been made: the state in which the Round Controller takes the
frame, for every later state with the same P and the same signature states (R18, R23, R36). -/
theorem State.changePeer_afterEntry (s t : State) (a : Station) (f : PeerEntry → PeerEntry)
    (hn : t.now = s.now) (hi : t.image = s.image) (he : t.eligible = (s.changePeer a f).eligible)
    (hg : ∀ b, (t.peer b).signatureState = ((s.changePeer a f).peer b).signatureState) :
    (s.changePeer a f).Tallied (s.afterEntry t a) := by
  have hm := s.changePeer_moves a f
  have he' : t.eligible = (s.setPeer a (f (s.peer a))).eligibleNow := he.trans hm.eligible
  have hg' : ∀ b, (t.peer b).signatureState = ((s.setPeer a (f (s.peer a))).peer b).signatureState :=
    fun b => (hg b).trans (hm.signatureState b)
  have hv : ({ s.setPeer a (f (s.peer a)) with eligible := (s.setPeer a (f (s.peer a))).eligibleNow } : State).Tallied
      { t with round := s.round, queue := s.queue, shutdownLatch := s.shutdownLatch, life := s.life } :=
    ⟨hn.symm, hi.symm, rfl, he'.symm, fun b => (hg' b).symm, rfl, rfl, rfl, rfl⟩
  have hc : (t.eligible = s.eligible ∧ (t.peer a).signatureState = (s.peer a).signatureState)
      ↔ ¬ ((s.setPeer a (f (s.peer a))).eligibleNow ≠ (s.setPeer a (f (s.peer a))).eligible
        ∨ (((s.setPeer a (f (s.peer a))).peer a).signatureState != (s.peer a).signatureState) = true) := by
    rw [he', hg' a]
    simp
  have hd : ((s.setPeer a (f (s.peer a))).deliverEligible
      (((s.setPeer a (f (s.peer a))).peer a).signatureState != (s.peer a).signatureState)).Tallied (s.afterEntry t a) := by
    unfold State.deliverEligible State.afterEntry
    dsimp only
    by_cases hk : t.eligible = s.eligible ∧ (t.peer a).signatureState = (s.peer a).signatureState
    · rw [if_pos hk, if_neg (hc.mp hk)]
      exact hv
    · rw [if_neg hk, if_pos (Classical.not_not.mp fun k => hk (hc.mpr k))]
      exact hv.commitTest
  unfold State.changePeer
  dsimp only
  split
  · exact hd
  · exact ⟨hd.now, hd.image, hd.nodeState, hd.eligible, hd.signatureState, hd.round, hd.queue, hd.latch, hd.flag⟩

/-- A frame of another station, taken by the Round Controller alone once the entry has changed. -/
theorem State.hearing_afterEntry {s t : State} {a : Station} (f : PeerEntry → PeerEntry)
    (hm : ((s.toWait true).changePeer a f).RoundMoves t) :
    ((s.toWait true).changePeer a f).Alike (s.afterEntry t a)
      ∧ ((s.toWait true).changePeer a f).standing = (s.afterEntry t a).standing := by
  have hf := (s.toWait true).changePeer_frame a f
  have h₀ := (s.toWait true).changePeer_afterEntry t a f
    (by rw [hm.now, hf]) (by rw [hm.image, hf]) hm.eligible hm.signatureState
  have hw : (s.toWait true).afterEntry t a = s.afterEntry t a := rfl
  rw [hw] at h₀
  have hk : ∀ P : State → Prop, P { t with
      round := s.round, queue := s.queue, shutdownLatch := s.shutdownLatch, life := s.life } →
      P (State.commitTest { t with
        round := s.round, queue := s.queue, shutdownLatch := s.shutdownLatch, life := s.life }) → P (s.afterEntry t a) := by
    intro P h₁ h₂
    unfold State.afterEntry
    dsimp only
    split <;> assumption
  refine ⟨⟨h₀, ?_, ?_⟩, ?_⟩
  · refine hk (fun x => _ = x.channels) hm.channels.symm ?_
    rw [(State.commitTest_moves _).channels]; exact hm.channels.symm
  · refine hk (fun x => _ = x.link.inFlight) (by rw [hm.link]) ?_
    rw [(State.commitTest_moves _).link]
    show _ = t.link.inFlight
    rw [hm.link]
  · refine hk (fun x => _ = x.standing) hm.standing.symm ?_
    rw [(State.commitTest_moves _).standing]; exact hm.standing.symm

end Sys2Proof.Machine
end

