-- ==== Sys2Proof/Laws/Monitor.lean ====
section
/-! SUPPORT. What a sample and an acknowledgement do to the state as a whole (03, 04). -/
namespace Sys2Proof.Machine

/-! ## Records offered -/

theorem State.offer_frame (s : State) (f : Pending) : s.offer f = { s with queue := (s.offer f).queue } := by
  unfold State.offer; split <;> rfl

theorem State.offerRecords_frame (s : State) (rs : List AlarmRecord) :
    s.offerRecords rs = { s with queue := (s.offerRecords rs).queue } := by
  unfold State.offerRecords
  induction rs generalizing s with
  | nil => rfl
  | cons r rs ih =>
    rw [List.foldl_cons, ih, State.offer_frame s]

/-! ## The demand and the verdict as functions of the records -/

/-- The local demand depends on the records and the configuration alone (R75, R76). -/
theorem State.localDemandNow_congr {s t : State} (hc : t.channels = s.channels) (hi : t.image = s.image) :
    t.localDemandNow = s.localDemandNow := by
  simp [State.localDemandNow, State.channelCfg, State.cfg, State.watch, hc, hi]

/-- Node critical depends on the records alone (R82). -/
theorem State.nodeCritical_congr {s t : State} (hc : t.channels = s.channels) : t.nodeCritical = s.nodeCritical := by
  unfold State.nodeCritical
  congr 1
  funext c
  simp [State.isCritical, State.watch, hc]

/-- The standing verdict depends on the records and the configuration alone (R84 to R86). -/
theorem State.standingNow_congr {s t : State} (hc : t.channels = s.channels) (hi : t.image = s.image) :
    t.standingNow = s.standingNow := by
  have h : t.corroborates = s.corroborates := by
    funext c
    simp [State.corroborates, State.channelCfg, State.cfg, State.watch, hc, hi]
  simp [State.standingNow, h, State.nodeCritical_congr hc, State.cfg, hi]

theorem State.nodeCritical_iff (s : State) : s.nodeCritical = true ↔ ∃ c, (s.watch c).criticalState = .critical := by
  simp [State.nodeCritical, State.isCritical]

theorem State.corroborates_iff (s : State) (c : Channel) :
    s.corroborates c = true ↔ (s.channelCfg c).enabled = true ∧ (s.channelCfg c).corroborating = true
      ∧ (s.watch c).condition = .raised ∧ (s.watch c).faulted = false := by
  simp [State.corroborates, and_assoc]

/-! ## The parts of a sample (R61) -/

/-- What the parts of a sample for channel `c` may change, each with what it leaves; `w` is the record it leaves. -/
structure State.SampleMoves (s t : State) (c : Channel) (w : WatchRecord) : Prop where
  frame : t = { s with
      channels := s.channels.set c w
      localDemand := t.localDemand
      standing := t.standing
      peers := t.peers
      round := t.round
      shutdownLatch := t.shutdownLatch
      fanA := t.fanA
      fanB := t.fanB
      queue := t.queue
      life := { s.life with leavePending := t.life.leavePending } }
  others : ∀ a, a ≠ s.own → t.peer a = s.peer a
  supervision : s.SameSupervision t

theorem State.SampleMoves.trans {s t u : State} {c : Channel} {v w : WatchRecord} (h₁ : s.SampleMoves t c v)
    (h₂ : t.SampleMoves u c w) : s.SampleMoves u c w where
  frame := by
    have h := h₂.frame
    rw [h₁.frame] at h
    simp only [Vector.set_set] at h
    exact h
  others a ha := by
    have ho : t.own = s.own := by rw [h₁.frame]; rfl
    rw [h₂.others a (by rw [ho]; exact ha), h₁.others a ha]
  supervision := h₁.supervision.trans h₂.supervision

theorem State.SampleMoves.watch_self {s t : State} {c : Channel} {w : WatchRecord} (h : s.SampleMoves t c w) :
    t.watch c = w := by
  rw [h.frame]
  simp [State.watch]

theorem State.SampleMoves.watch_ne {s t : State} {c d : Channel} {w : WatchRecord} (h : s.SampleMoves t c w) (hd : d ≠ c) :
    t.watch d = s.watch d := by
  rw [h.frame]
  exact State.watch_setWatch_ne s hd w

theorem State.SampleMoves.image {s t : State} {c : Channel} {w : WatchRecord} (h : s.SampleMoves t c w) :
    t.image = s.image := by
  rw [h.frame]

theorem State.SampleMoves.cfg {s t : State} {c : Channel} {w : WatchRecord} (h : s.SampleMoves t c w) :
    t.cfg = s.cfg := by
  rw [h.frame]; rfl

theorem State.set_same (s : State) (c : Channel) : s.channels.set c (s.watch c) = s.channels := by
  simp [State.watch]

/-- The Round Controller's part of a sample. -/
theorem State.RoundMoves.sample {s t : State} (h : s.RoundMoves t) (c : Channel) : s.SampleMoves t c (s.watch c) where
  frame := by
    rw [State.set_same, h.localDemand, h.standing]
    exact h.frame
  others := h.others
  supervision := h.supervision

/-- A change of the own entry alone. -/
theorem State.updateOwn_sample (s : State) (g : PeerEntry → PeerEntry) (c : Channel) :
    s.SampleMoves (s.updateOwn g) c (s.watch c) where
  frame := by rw [State.set_same]; rfl
  others _ ha := State.updateOwn_peer_ne s g ha
  supervision := fun _ => rfl

/-- Parts 1 to 3. -/
theorem State.observe_moves (s : State) (c : Channel) (p : Sample) :
    s.SampleMoves (s.observe c p) c ((s.watch c).takeSample (s.channelCfg c) p) where
  frame := by
    unfold State.observe
    rw [State.offerRecords_frame]
    rfl
  others a ha := by
    unfold State.observe
    rw [State.offerRecords_frame]
    exact State.updateOwn_peer_ne _ _ ha
  supervision := by
    unfold State.observe
    rw [State.offerRecords_frame]
    intro f
    cases f <;> rfl

theorem State.criticalChanged_moves (s : State) (b : Bool) (c : Channel) :
    s.SampleMoves (s.criticalChanged b) c (s.watch c) := by
  unfold State.criticalChanged
  split
  · exact (State.RoundMoves.refl s).sample c
  · split
    · exact (State.updateOwn_sample s _ c).trans ((State.propose_moves _).sample c)
    · exact (State.updateOwn_sample s _ c).trans ((State.withdrawOwn_moves _).sample c)

/-- Part 4. -/
theorem State.judgeCritical_moves (s : State) (c : Channel) (p : Sample) :
    s.SampleMoves (s.judgeCritical c p) c ((s.watch c).criticalStep (s.channelCfg c) p) := by
  unfold State.judgeCritical
  have h₁ : s.SampleMoves (s.setWatch c ((s.watch c).criticalStep (s.channelCfg c) p)) c
      ((s.watch c).criticalStep (s.channelCfg c) p) :=
    ⟨rfl, fun _ _ => rfl, fun _ => rfl⟩
  have h₂ := State.criticalChanged_moves (s.setWatch c ((s.watch c).criticalStep (s.channelCfg c) p)) s.nodeCritical c
  rw [State.watch_setWatch_self] at h₂
  exact h₁.trans h₂

/-- Part 5, the local demand. -/
theorem State.updateDemand_moves (s : State) (c : Channel) : s.SampleMoves s.updateDemand c (s.watch c) := by
  unfold State.updateDemand
  dsimp only
  generalize s.localDemandNow = d
  have h : s.SampleMoves ({ s with localDemand := d }.updateOwn fun e => { e with demand := d }) c (s.watch c) :=
    ⟨by rw [State.set_same]; rfl, fun _ ha => State.updateOwn_peer_ne { s with localDemand := d } _ ha,
      fun _ => rfl⟩
  split
  · exact (State.RoundMoves.refl s).sample c
  · split
    · exact h
    · have h₂ := (State.recomputeTargets_moves ({ s with localDemand := d }.updateOwn fun e =>
        { e with demand := d })).sample c
      rw [h.watch_self] at h₂
      exact h.trans h₂

/-- The local demand is current after its update (R76). -/
theorem State.updateDemand_current (s : State) : s.updateDemand.localDemand = s.updateDemand.localDemandNow := by
  have h := (State.updateDemand_moves s 0)
  have hc : s.updateDemand.channels = s.channels := by rw [h.frame]; exact State.set_same s 0
  rw [State.localDemandNow_congr hc h.image]
  unfold State.updateDemand
  dsimp only
  split
  · rename_i he; exact he.symm
  · split <;> simp

/-- The standing verdict's update. -/
theorem State.updateStanding_moves (s : State) :
    ({ s with standing := s.standingNow } : State).RoundMoves s.updateStanding := by
  unfold State.updateStanding
  split
  · rename_i h
    rw [h]
    exact .refl s
  · exact State.verdictChanged_moves _ _

theorem State.updateStanding_sample (s : State) (c : Channel) : s.SampleMoves s.updateStanding c (s.watch c) := by
  have h₁ : s.SampleMoves { s with standing := s.standingNow } c (s.watch c) :=
    ⟨by rw [State.set_same], fun _ _ => rfl, fun _ => rfl⟩
  exact h₁.trans ((State.updateStanding_moves s).sample c)

/-- The standing verdict is current after its update (R86). -/
theorem State.updateStanding_current (s : State) : s.updateStanding.standing = s.updateStanding.standingNow := by
  have h := State.updateStanding_moves s
  rw [h.standing, State.standingNow_congr (s := s) h.channels h.image]

/-- A sample handled whole (R61). -/
theorem State.takeSample_moves (s : State) (c : Channel) (p : Sample) :
    s.SampleMoves (s.takeSample c p) c
      (((s.watch c).takeSample (s.channelCfg c) p).criticalStep (s.channelCfg c) p) := by
  unfold State.takeSample
  have h₁ := State.observe_moves s c p
  have h₂ := State.judgeCritical_moves (s.observe c p) c p
  rw [h₁.watch_self] at h₂
  have hk : (s.observe c p).channelCfg c = s.channelCfg c := by simp [State.channelCfg, h₁.cfg]
  rw [hk] at h₂
  have h₃ := State.updateDemand_moves ((s.observe c p).judgeCritical c p) c
  rw [h₂.watch_self] at h₃
  have h₄ := State.updateStanding_sample (((s.observe c p).judgeCritical c p).updateDemand) c
  rw [h₃.watch_self] at h₄
  exact ((h₁.trans h₂).trans h₃).trans h₄

/-- Local demand and standing verdict are current after a sample (R76, R86). -/
theorem State.takeSample_summed (s : State) (c : Channel) (p : Sample) :
    (s.takeSample c p).localDemand = (s.takeSample c p).localDemandNow
      ∧ (s.takeSample c p).standing = (s.takeSample c p).standingNow := by
  unfold State.takeSample
  refine ⟨?_, State.updateStanding_current _⟩
  have hd := State.updateDemand_current ((s.observe c p).judgeCritical c p)
  generalize ((s.observe c p).judgeCritical c p).updateDemand = u at hd ⊢
  have h := State.updateStanding_moves u
  rw [h.localDemand, State.localDemandNow_congr (s := u) h.channels h.image]
  exact hd

/-! ## An acknowledgement (R71) -/

/-- The record of channel `c` once the channels of `set` have been acknowledged. -/
def State.acknowledged (s : State) (set : ChannelSet) (c : Channel) : WatchRecord :=
  if member set c = true ∧ (s.channelCfg c).enabled = true ∧ (s.watch c).reportState = .unacked
  then (s.watch c).acknowledge (s.channelCfg c).mode else s.watch c

theorem State.ackChannel_frame (s : State) (set : ChannelSet) (c : Channel) :
    s.ackChannel set c
      = { s with channels := s.channels.set c (s.acknowledged set c), queue := (s.ackChannel set c).queue } := by
  unfold State.ackChannel State.acknowledged
  dsimp only
  split
  · rw [State.offerRecords_frame]; rfl
  · rw [State.set_same]

theorem State.ackFold_frame (s : State) (set : ChannelSet) (l : List Channel) :
    l.foldl (State.ackChannel set) s
      = { s with
          channels := (l.foldl (State.ackChannel set) s).channels
          queue := (l.foldl (State.ackChannel set) s).queue } := by
  induction l generalizing s with
  | nil => rfl
  | cons c l ih =>
    rw [List.foldl_cons, ih, State.ackChannel_frame]

/-- The fold over distinct channels acknowledges each of them once. -/
theorem State.ackFold_watch (s : State) (set : ChannelSet) (l : List Channel) (hl : l.Nodup) (c : Channel) :
    (l.foldl (State.ackChannel set) s).watch c = if c ∈ l then s.acknowledged set c else s.watch c := by
  induction l generalizing s with
  | nil => simp
  | cons d l ih =>
    obtain ⟨hd, hl⟩ := List.nodup_cons.mp hl
    rw [List.foldl_cons, ih _ hl]
    have hf := s.ackChannel_frame set d
    by_cases hc : c = d
    · subst hc
      rw [if_neg hd, if_pos (List.mem_cons_self ..), hf]
      simp [State.watch]
    · have hw : (s.ackChannel set d).watch c = s.watch c := by
        rw [hf]
        exact State.watch_setWatch_ne s hc _
      have hk : (s.ackChannel set d).channelCfg c = s.channelCfg c := by rw [hf]; rfl
      have ha : (s.ackChannel set d).acknowledged set c = s.acknowledged set c := by
        simp only [State.acknowledged, hw, hk]
      rw [ha, hw]
      simp [hc]

theorem State.verdictChanged_life (s : State) (v : Verdict) : (s.verdictChanged v).life = s.life := by
  unfold State.verdictChanged
  split
  · rw [State.commitTest_life]; simp
  · rfl

theorem State.updateStanding_life (s : State) : s.updateStanding.life = s.life := by
  unfold State.updateStanding
  split
  · rfl
  · exact State.verdictChanged_life _ _

/-- What an acknowledgement leaves (R71, R86). -/
theorem State.acknowledge_spec (s : State) (set : ChannelSet) :
    s.acknowledge set = { s with
        channels := (s.acknowledge set).channels
        standing := (s.acknowledge set).standing
        peers := (s.acknowledge set).peers
        round := (s.acknowledge set).round
        shutdownLatch := (s.acknowledge set).shutdownLatch
        fanA := (s.acknowledge set).fanA
        fanB := (s.acknowledge set).fanB
        queue := (s.acknowledge set).queue }
      ∧ (∀ c, (s.acknowledge set).watch c = s.acknowledged set c)
      ∧ (∀ a, a ≠ s.own → (s.acknowledge set).peer a = s.peer a)
      ∧ (s.acknowledge set).standing = (s.acknowledge set).standingNow
      ∧ s.SameSupervision (s.acknowledge set) := by
  unfold State.acknowledge
  generalize hu : (List.finRange 8).foldl (State.ackChannel set) s = u
  have hf : u = { s with channels := u.channels, queue := u.queue } := by
    rw [← hu]; exact State.ackFold_frame s set _
  have hw : ∀ c, u.watch c = s.acknowledged set c := fun c => by
    rw [← hu, State.ackFold_watch s set _ (List.nodup_finRange 8) c, if_pos (List.mem_finRange c)]
  have ho : u.own = s.own := by rw [hf]; rfl
  have hp : ∀ a, u.peer a = s.peer a := fun a => by rw [hf]; rfl
  have hm := State.updateStanding_moves u.mirrorSets
  have hl := State.updateStanding_life u.mirrorSets
  have hcur := State.updateStanding_current u.mirrorSets
  generalize u.mirrorSets.updateStanding = t at hm hl hcur ⊢
  refine ⟨?_, fun c => ?_, fun a ha => ?_, hcur, ?_⟩
  · have h := hm.frame
    rw [hl] at h
    rw [hm.standing, hm.channels]
    rw [hf] at h ⊢
    exact h
  · rw [← hw c]
    unfold State.watch
    rw [hm.channels]
    rfl
  · rw [← hp a]
    refine (hm.others a ?_).trans ?_
    · change a ≠ u.own
      rw [ho]; exact ha
    · have hx : u.mirrorSets.peer a = u.peer a := State.updateOwn_peer_ne u _ (by rw [ho]; exact ha)
      exact hx
  · have h₁ : s.SameSupervision u := by rw [hf]; intro f; cases f <;> rfl
    refine h₁.trans fun f => ?_
    exact hm.supervision f

end Sys2Proof.Machine
end

