-- ==== Sys2Proof/Laws/Handling.lean ====
section
/-! SUPPORT. What a sample and an acknowledgement leave of the round, the queue, the latch and the flag: the records reported,
the beginning or end of node critical, and the turn of the verdict (03 R61, R66, R71; 04 R83, R87). -/
namespace Sys2Proof.Machine

variable {s t : State}

/-- ALARM records offered one after another (R66, R143). -/
theorem State.Alike.reporting (h : s.Alike t) (rs : List AlarmRecord) : (s.offerRecords rs).Alike (t.reporting rs) := by
  have ha : ∀ u : State, u.life.nodeState.admits .alarm = u.isActive := fun u => by
    unfold State.isActive; cases u.life.nodeState <;> rfl
  have hq : ∀ (l : List AlarmRecord) (u : State), (u.offerRecords l).queue
      = if u.isActive then l.foldl (fun q r => enqueue q (.alarm [r])) u.queue else u.queue := by
    intro l
    unfold State.offerRecords
    induction l with
    | nil => intro u; simp
    | cons r l ih =>
      intro u
      have hi : (u.offer (.alarm [r])).isActive = u.isActive := by simp
      rw [List.foldl_cons, ih, hi, State.offer_queue]
      have hk : (FrameOf.alarm [r] : Pending).kind = .alarm := rfl
      rw [hk, ha u]
      split <;> simp_all
  have hr : (s.offerRecords rs).queue = (t.reporting rs).queue := by
    rw [hq, h.isActive, h.queue]
    unfold State.reporting
    split <;> rfl
  have hp : ∀ P : State → Prop, (∀ q, P { t with queue := q }) → P (t.reporting rs) := by
    intro P hall
    unfold State.reporting
    split
    · exact hall _
    · exact hall t.queue
  rw [State.offerRecords_frame]
  refine ⟨⟨?_, ?_, ?_, ?_, fun a => ?_, ?_, hr, ?_, ?_⟩, ?_, ?_⟩
  · exact hp (fun x => _ = x.now) fun _ => h.now
  · exact hp (fun x => _ = x.image) fun _ => h.image
  · exact hp (fun x => _ = x.life.nodeState) fun _ => h.nodeState
  · exact hp (fun x => _ = x.eligible) fun _ => h.eligible
  · exact hp (fun x => _ = (x.peer a).signatureState) fun _ => h.signatureState a
  · exact hp (fun x => _ = x.round) fun _ => h.round
  · exact hp (fun x => _ = x.shutdownLatch) fun _ => h.latch
  · exact hp (fun x => _ = x.life.leavePending) fun _ => h.flag
  · exact hp (fun x => _ = x.channels) fun _ => h.channels
  · exact hp (fun x => _ = x.link.inFlight) fun _ => h.inFlight

/-- A change of the own entry that leaves its signature state alone leaves every one alone. -/
theorem State.updateOwn_signatureState (s : State) (f : PeerEntry → PeerEntry)
    (hf : (f (s.peer s.own)).signatureState = (s.peer s.own).signatureState) (a : Station) :
    ((s.updateOwn f).peer a).signatureState = (s.peer a).signatureState := by
  by_cases ha : a = s.own
  · subst ha
    rw [State.updateOwn_peer_own, hf]
  · rw [State.updateOwn_peer_ne s f ha]

theorem State.Alike.updateOwn (h : s.Alike t) (f : PeerEntry → PeerEntry)
    (hf : (f (s.peer s.own)).signatureState = (s.peer s.own).signatureState) : (s.updateOwn f).Alike t :=
  ⟨⟨h.now, h.image, h.nodeState, h.eligible, fun a => (s.updateOwn_signatureState f hf a).trans (h.signatureState a),
    h.round, h.queue, h.latch, h.flag⟩, h.channels, h.inFlight⟩

theorem State.Alike.setWatch (h : s.Alike t) (c : Channel) (w : WatchRecord) : (s.setWatch c w).Alike (t.setWatch c w) :=
  ⟨⟨h.now, h.image, h.nodeState, h.eligible, h.signatureState, h.round, h.queue, h.latch, h.flag⟩,
    by simp [State.setWatch, h.channels], h.inFlight⟩

theorem State.Alike.mirrorSets (h : s.Alike t) : s.mirrorSets.Alike t := h.updateOwn _ rfl

/-- Recomputing the targets. -/
theorem State.Alike.recompute (h : s.Alike t) : s.recomputeTargets.Alike t :=
  ⟨⟨h.now, h.image, h.nodeState, h.eligible, h.signatureState, h.round, h.queue, h.latch, h.flag⟩, h.channels, h.inFlight⟩

theorem State.Alike.updateDemand (h : s.Alike t) : s.updateDemand.Alike t := by
  unfold State.updateDemand
  dsimp only
  generalize s.localDemandNow = d
  have h₁ : ({ s with localDemand := d } : State).Alike t :=
    ⟨⟨h.now, h.image, h.nodeState, h.eligible, h.signatureState, h.round, h.queue, h.latch, h.flag⟩, h.channels, h.inFlight⟩
  have h₂ := h₁.updateOwn (fun e => { e with demand := d }) rfl
  generalize State.updateOwn { s with localDemand := d } (fun e => { e with demand := d }) = u at h₂ ⊢
  split
  · exact h
  · split
    · exact h₂
    · exact h₂.recompute

/-- The standing verdict's update, against a state that already shows the new verdict (R86, R87). -/
theorem State.Alike.updateStanding (h : s.Alike t) (hv : t.standing = s.standingNow) :
    s.updateStanding.Alike (t.verdictTurns s.standing) := by
  unfold State.updateStanding
  split
  · rename_i he
    have : t.verdictTurns s.standing = t := by
      unfold State.verdictTurns
      rw [if_neg]
      rintro ⟨h₁, h₂, _⟩
      rw [hv, he, h₁] at h₂
      cases h₂
    rw [this]
    exact h
  · rename_i he
    rw [← hv]
    have h₁ : ({ s with standing := t.standing } : State).Alike t :=
      ⟨⟨h.now, h.image, h.nodeState, h.eligible, h.signatureState, h.round, h.queue, h.latch, h.flag⟩, h.channels,
        h.inFlight⟩
    exact h₁.verdictTurns s.standing fun k => he (by rw [← hv, ← k])

/-- What follows when node critical, which `before` says held or not, begins, ends or stays (R83). -/
def State.criticalTurns (s : State) (before : Bool) : State :=
  if before = false ∧ s.nodeCritical = true then s.criticalBegins
  else if before = true ∧ s.nodeCritical = false then s.criticalEnds else s

theorem State.Alike.criticalTurns (h : s.Alike t) (before : Bool) :
    (s.criticalChanged before).Alike (t.criticalTurns before) := by
  have hm := h.updateOwn (fun e => { e with critical := s.nodeCritical }) rfl
  have hm' : s.mirrorCritical.Alike t := hm
  unfold State.criticalChanged State.criticalTurns
  rw [h.nodeCritical]
  cases before <;> cases hc : t.nodeCritical
  · simpa using h
  · simpa using hm'.criticalBegins hc
  · simpa using hm'.criticalEnds hc
  · simpa using h

theorem State.queuing_standing (s : State) (f : Pending) : (s.queuing f).standing = s.standing := by
  unfold State.queuing; split <;> rfl

theorem State.coProposing_standing (s : State) : s.coProposing.standing = s.standing := State.queuing_standing _ _

/-- The standing verdict is no part of what the beginning or end of node critical changes. -/
theorem State.criticalTurns_standing (s : State) (before : Bool) : (s.criticalTurns before).standing = s.standing := by
  have h₁ : s.proposing.standing = s.standing := by
    unfold State.proposing
    rw [(State.commitTest_moves _).standing, State.queuing_standing]
    rfl
  have h₂ : s.coProposing.commitTest.standing = s.standing := by
    rw [(State.commitTest_moves _).standing, State.coProposing_standing]
  have h₃ : s.criticalBegins.standing = s.standing := by
    unfold State.criticalBegins
    repeat' split
    all_goals first | exact h₁ | exact h₂ | exact State.coProposing_standing s | rfl
  have h₄ : s.criticalEnds.standing = s.standing := by
    unfold State.criticalEnds
    dsimp only
    repeat' split
    all_goals first | exact State.queuing_standing _ _ | rfl
  unfold State.criticalTurns
  repeat' split
  all_goals first | exact h₃ | exact h₄ | rfl

/-- A sample's first three parts leave every critical state alone (R61, R78). -/
theorem WatchRecord.takeSample_criticalState (k : ChannelConfig) (p : Sample) (w : WatchRecord) :
    (w.takeSample k p).criticalState = w.criticalState := by
  have h₁ : ((w.sense p).conditionStep k p).criticalState = w.criticalState := by
    unfold WatchRecord.conditionStep WatchRecord.sense
    dsimp only
    repeat' split
    all_goals rfl
  have h₂ : ∀ (m : ReportMode) (e : AlarmEvent) (v : WatchRecord), (v.afterEvent m e).criticalState = v.criticalState := by
    intro m e v
    unfold WatchRecord.afterEvent WatchRecord.reported
    repeat' split
    all_goals rfl
  unfold WatchRecord.takeSample
  dsimp only
  split
  · rw [h₂, h₁]
  · exact h₁

/-- Parts 1 to 3 leave node critical as it was. -/
theorem State.observe_nodeCritical (s : State) (c : Channel) (p : Sample) : (s.observe c p).nodeCritical = s.nodeCritical := by
  have h := State.observe_moves s c p
  unfold State.nodeCritical
  congr 1
  funext d
  unfold State.isCritical
  by_cases hd : d = c
  · subst hd
    rw [h.watch_self, WatchRecord.takeSample_criticalState]
  · rw [h.watch_ne hd]

theorem State.reporting_keeps (s : State) (rs : List AlarmRecord) :
    s.reporting rs = { s with queue := (s.reporting rs).queue } := by
  unfold State.reporting; split <;> rfl

/-- Every part of a sample leaves the signature states alone. -/
theorem State.takeSample_signatureState (s : State) (c : Channel) (p : Sample) (a : Station) :
    ((s.takeSample c p).peer a).signatureState = (s.peer a).signatureState := by
  have h₁ : ((s.observe c p).peer a).signatureState = (s.peer a).signatureState := by
    unfold State.observe
    rw [State.offerRecords_frame]
    exact State.updateOwn_signatureState _ _ rfl a
  have h₂ : ∀ u : State, ((u.judgeCritical c p).peer a).signatureState = (u.peer a).signatureState := by
    intro u
    unfold State.judgeCritical State.criticalChanged
    have hm : ∀ v : State, (v.mirrorCritical.peer a).signatureState = (v.peer a).signatureState :=
      fun v => State.updateOwn_signatureState v _ rfl a
    generalize hv : u.setWatch c ((u.watch c).criticalStep (u.channelCfg c) p) = v
    have hp : (v.peer a).signatureState = (u.peer a).signatureState := by rw [← hv]; rfl
    split
    · exact hp
    · split
      · rw [(State.propose_moves _).signatureState, hm, hp]
      · rw [(State.withdrawOwn_moves _).signatureState, hm, hp]
  have h₃ : ∀ u : State, (u.updateDemand.peer a).signatureState = (u.peer a).signatureState := fun u =>
    ((State.Alike.refl u).updateDemand).signatureState a
  have h₄ : ∀ u : State, (u.updateStanding.peer a).signatureState = (u.peer a).signatureState := fun u =>
    (State.updateStanding_moves u).signatureState a
  unfold State.takeSample
  rw [h₄, h₃, h₂, h₁]

theorem State.updateDemand_standing (s : State) : s.updateDemand.standing = s.standing := by
  unfold State.updateDemand
  dsimp only
  generalize s.localDemandNow = d
  repeat' split
  all_goals rfl

/-- Records reported before the last change of a watch record, seen in the sample's last state. -/
theorem State.reporting_alike (s t : State) (c : Channel) (v w : WatchRecord) (rs : List AlarmRecord) (hn : t.now = s.now)
    (hi : t.image = s.image) (he : t.eligible = s.eligible)
    (hg : ∀ a, (t.peer a).signatureState = (s.peer a).signatureState) (hc : t.channels = s.channels.set c w)
    (hl : t.link.inFlight = s.link.inFlight) :
    (((s.setWatch c v).reporting rs).setWatch c w).Alike
      (State.reporting
        { t with round := s.round, queue := s.queue, shutdownLatch := s.shutdownLatch, life := s.life } rs) := by
  unfold State.reporting
  show State.Alike (State.setWatch (if s.isActive = true then _ else _) c w) (if s.isActive = true then _ else _)
  have hd : (s.channels.set c v).set c w = t.channels := by rw [hc]; simp
  split
  · exact ⟨⟨hn.symm, hi.symm, rfl, he.symm, fun a => (hg a).symm, rfl, rfl, rfl, rfl⟩, hd, hl.symm⟩
  · exact ⟨⟨hn.symm, hi.symm, rfl, he.symm, fun a => (hg a).symm, rfl, rfl, rfl, rfl⟩, hd, hl.symm⟩

/-- A sample handled whole: what it leaves of the round, the queue, the latch and the flag (R61, R66, R83, R87). -/
theorem State.takeSample_round (s : State) (c : Channel) (p : Sample) :
    (s.takeSample c p).RoundAs (s.afterSample (s.takeSample c p) c p) := by
  have hm := State.takeSample_moves s c p
  have hg := State.takeSample_signatureState s c p
  have hs := (State.takeSample_summed s c p).2
  have h₁ := State.observe_moves s c p
  have hk : (s.observe c p).channelCfg c = s.channelCfg c := by simp [State.channelCfg, h₁.cfg]
  have ho : (s.observe c p).standing = s.standing := by
    unfold State.observe; rw [State.offerRecords_frame]; rfl
  -- the parts, one after another, against the rules
  have a₁ : (s.observe c p).Alike ((s.setWatch c ((s.watch c).takeSample (s.channelCfg c) p)).reporting
      (sampleRecords c (s.channelCfg c) p (s.watch c))) :=
    ((State.Alike.refl (s.setWatch c ((s.watch c).takeSample (s.channelCfg c) p))).reporting _).mirrorSets
  have a₂ := a₁.setWatch c (((s.watch c).takeSample (s.channelCfg c) p).criticalStep (s.channelCfg c) p)
  have hj : (s.observe c p).judgeCritical c p = ((s.observe c p).setWatch c
      (((s.watch c).takeSample (s.channelCfg c) p).criticalStep (s.channelCfg c) p)).criticalChanged s.nodeCritical := by
    unfold State.judgeCritical
    rw [State.observe_nodeCritical, h₁.watch_self, hk]
  have hst : ((s.observe c p).judgeCritical c p).updateDemand.standing = s.standing := by
    rw [State.updateDemand_standing, ← ho, hj]
    unfold State.criticalChanged
    repeat' split
    · rfl
    · rw [(State.propose_moves _).standing]; rfl
    · rw [(State.withdrawOwn_moves _).standing]; rfl
  have ht : s.takeSample c p = ((s.observe c p).judgeCritical c p).updateDemand.updateStanding := by
    unfold State.takeSample; rfl
  have hn : ((s.observe c p).judgeCritical c p).updateDemand.standingNow = (s.takeSample c p).standing := by
    rw [hs, ht]
    generalize ((s.observe c p).judgeCritical c p).updateDemand = y
    exact (State.standingNow_congr (State.updateStanding_moves y).channels (State.updateStanding_moves y).image).symm
  -- the state the rules start from, seen in the sample's last state
  have b₁ := State.reporting_alike s (s.takeSample c p) c ((s.watch c).takeSample (s.channelCfg c) p)
    (((s.watch c).takeSample (s.channelCfg c) p).criticalStep (s.channelCfg c) p)
    (sampleRecords c (s.channelCfg c) p (s.watch c)) (by rw [hm.frame]) hm.image (by rw [hm.frame]) hg
    (by rw [hm.frame]) (by rw [hm.frame])
  have a₃ := ((a₂.trans b₁).criticalTurns s.nodeCritical).updateDemand
  rw [← hj] at a₃
  clear hm hg hs a₁ a₂ b₁ hj
  generalize ((s.observe c p).judgeCritical c p).updateDemand = y at a₃ hst hn ht
  generalize s.takeSample c p = t at a₃ hn ht ⊢
  unfold State.afterSample
  dsimp only
  generalize hr : State.reporting
    { t with round := s.round, queue := s.queue, shutdownLatch := s.shutdownLatch, life := s.life }
    (sampleRecords c (s.channelCfg c) p (s.watch c)) = u at a₃ ⊢
  have hu : u.standing = t.standing ∧ u.nodeCritical = t.nodeCritical := by
    rw [← hr, State.reporting_keeps]; exact ⟨rfl, rfl⟩
  have a₄ := a₃.updateStanding (by rw [State.criticalTurns_standing, hn, hu.1])
  rw [hst, ← ht] at a₄
  unfold State.criticalTurns at a₄
  rw [hu.2] at a₄
  exact a₄.roundAs

/-! ## Acknowledgements (R71 to R73) -/

/-- The records one channel of an acknowledgement reports. -/
def State.channelRecords (s : State) (x : Channel → Bool) (c : Channel) : List AlarmRecord :=
  if x c = true ∧ (s.channelCfg c).enabled = true ∧ (s.watch c).reportState = .unacked then
    match ackEvent (s.channelCfg c).mode (s.watch c) with
    | some e => [alarmRecord c (s.channelCfg c) e ((s.watch c).acknowledge (s.channelCfg c).mode)]
    | none => []
  else []

theorem State.offerRecords_append (s : State) (l m : List AlarmRecord) :
    s.offerRecords (l ++ m) = (s.offerRecords l).offerRecords m := by
  unfold State.offerRecords; rw [List.foldl_append]

/-- One channel acknowledged: its records are offered, and its watch record changed (R71). -/
theorem State.ackChannel_queue (s : State) (set : ChannelSet) (c : Channel) :
    (s.ackChannel set c).queue = (s.offerRecords (s.channelRecords (fun d => member set d) c)).queue := by
  unfold State.ackChannel State.channelRecords
  dsimp only
  split
  · cases ackEvent (s.channelCfg c).mode (s.watch c) with
    | none => rfl
    | some e =>
      show State.queue (State.offer _ (s.setWatch c _)) = State.queue (State.offer _ s)
      rw [State.offer_queue, State.offer_queue]
      rfl
  · rfl

/-- The channels of an acknowledgement, one after another, offer their records in order. -/
theorem State.ackFold_queue (s : State) (set : ChannelSet) (l : List Channel) (hl : l.Nodup) :
    (l.foldl (State.ackChannel set) s).queue
      = (s.offerRecords (l.flatMap (s.channelRecords fun d => member set d))).queue := by
  induction l generalizing s with
  | nil => rfl
  | cons c l ih =>
    obtain ⟨hc, hl⟩ := List.nodup_cons.mp hl
    rw [List.foldl_cons, ih _ hl, List.flatMap_cons, State.offerRecords_append]
    have hf := s.ackChannel_frame set c
    have hr : l.flatMap ((s.ackChannel set c).channelRecords fun d => member set d)
        = l.flatMap (s.channelRecords fun d => member set d) := by
      apply List.flatMap_congr
      intro d hd
      have hw : (s.ackChannel set c).watch d = s.watch d := by
        rw [hf]
        exact State.watch_setWatch_ne s (fun k => hc (by rw [← k]; exact hd)) _
      have hk : (s.ackChannel set c).channelCfg d = s.channelCfg d := by rw [hf]; rfl
      simp only [State.channelRecords, hw, hk]
    rw [hr]
    have hq := s.ackChannel_queue set c
    have e : ∀ (u v : State) (m : List AlarmRecord), u.life = v.life → u.queue = v.queue →
        (u.offerRecords m).queue = (v.offerRecords m).queue := by
      intro u v m h₁ h₂
      unfold State.offerRecords
      induction m generalizing u v with
      | nil => exact h₂
      | cons r m ih =>
        rw [List.foldl_cons, List.foldl_cons]
        refine ih _ _ (by simp [h₁]) ?_
        rw [State.offer_queue, State.offer_queue, h₁, h₂]
    refine e _ _ _ ?_ hq
    rw [hf, State.offerRecords_frame]

/-- An acknowledgement leaves the signature states alone. -/
theorem State.acknowledge_signatureState (s : State) (set : ChannelSet) (a : Station) :
    ((s.acknowledge set).peer a).signatureState = (s.peer a).signatureState := by
  unfold State.acknowledge
  rw [(State.updateStanding_moves _).signatureState]
  have hf := State.ackFold_frame s set (List.finRange 8)
  generalize (List.finRange 8).foldl (State.ackChannel set) s = u at hf ⊢
  have hu : (u.peer a).signatureState = (s.peer a).signatureState := by rw [hf]; rfl
  rw [← hu]
  exact (State.Alike.refl u).mirrorSets.signatureState a

/-- An acknowledgement: what it leaves of the round, the queue, the latch and the flag, against any state that shows its last
watch records and verdict (R71 to R73, R87). -/
theorem State.acknowledge_round (s : State) (set : ChannelSet) (u : State) (h : s.Tallied u)
    (hi : s.link.inFlight = u.link.inFlight) (hc : u.channels = (s.acknowledge set).channels)
    (hv : u.standing = (s.acknowledge set).standing) :
    (s.acknowledge set).RoundAs ((u.reporting (s.ackRecords fun c => member set c)).verdictTurns s.standing) := by
  obtain ⟨h₁, h₂, _, h₄, _⟩ := s.acknowledge_spec set
  have hrec : s.ackRecords (fun c => member set c)
      = (List.finRange 8).flatMap (s.channelRecords fun c => member set c) := rfl
  generalize hx : (List.finRange 8).foldl (State.ackChannel set) s = x
  have hxf : x = { s with channels := x.channels, queue := x.queue } := by
    rw [← hx]; exact State.ackFold_frame s set _
  have hxc : x.channels = (s.acknowledge set).channels := by
    unfold State.acknowledge
    rw [hx, (State.updateStanding_moves _).channels]
    rfl
  have hb : ({ s with channels := x.channels } : State).Alike u :=
    ⟨⟨h.now, h.image, h.nodeState, h.eligible, h.signatureState, h.round, h.queue, h.latch, h.flag⟩, by rw [hc, hxc], hi⟩
  have hr := hb.reporting (s.ackRecords fun c => member set c)
  have hxa : x.Alike (u.reporting (s.ackRecords fun c => member set c)) := by
    refine State.Alike.trans ?_ hr
    have hq : x.queue = (({ s with channels := x.channels } : State).offerRecords
        (s.ackRecords fun c => member set c)).queue := by
      rw [← hx, State.ackFold_queue s set _ (List.nodup_finRange 8), hrec, hx]
      have e₁ := ((State.Alike.refl s).reporting
        ((List.finRange 8).flatMap (s.channelRecords fun c => member set c))).queue
      have e₂ := ((State.Alike.refl ({ s with channels := x.channels } : State)).reporting
        ((List.finRange 8).flatMap (s.channelRecords fun c => member set c))).queue
      rw [e₁, e₂]
      unfold State.reporting
      show State.queue (if s.isActive = true then _ else _) = State.queue (if s.isActive = true then _ else _)
      split <;> rfl
    rw [State.offerRecords_frame]
    have : x.Alike { s with channels := x.channels, queue := x.queue } := by rw [← hxf]; exact .refl x
    rw [hq] at this
    exact this
  have hm := hxa.mirrorSets.updateStanding (by
    rw [State.reporting_keeps]
    show u.standing = _
    rw [hv, h₄]
    unfold State.acknowledge
    rw [hx]
    exact State.standingNow_congr (State.updateStanding_moves _).channels (State.updateStanding_moves _).image)
  have hs : x.mirrorSets.standing = s.standing := by rw [hxf]; rfl
  rw [hs] at hm
  have ha : s.acknowledge set = x.mirrorSets.updateStanding := by unfold State.acknowledge; rw [hx]
  rw [ha]
  exact hm.roundAs

end Sys2Proof.Machine
end

