-- ==== Sys2Proof/Laws/Life.lean ====
section
/-! SUPPORT. What the passages between node states, the return of a frame and the end of LOADING do, each said once (07, 09,
10). -/
namespace Sys2Proof.Machine

/-! ## Deadlines -/

theorem expired_iff (d : Deadline) (n : Millis) : expired d n = true ↔ Due d n := by
  cases d <;> simp [expired, Due]

/-! ## Passages (09) -/

/-- A passage to a state other than ACTIVE: the queue and the flight are gone, and P and the targets are current (R136, R152,
R155, R165). -/
theorem State.leaveFor_spec (s : State) {n : NodeState} (hn : n ≠ .active) :
    s.leaveFor n =
        { s with
          queue := []
          link := { s.link with inFlight := none }
          life :=
            { nodeState := n
              listenDeadline := none
              recoveryDeadline := if n = .linkOff then some (s.now + s.cfg.recoveryInterval) else none
              statusDeadline := none
              leavePending := false }
          eligible := (s.leaveFor n).eligible
          fanA := (s.leaveFor n).fanA
          fanB := (s.leaveFor n).fanB }
      ∧ EligibleCounted (s.leaveFor n) ∧ s.SameSupervision (s.leaveFor n) ∧ TargetsCurrent (s.leaveFor n) := by
  unfold State.leaveFor
  rw [State.deliverEligible_notActive _ _ (by simp [State.isActive, hn])]
  exact ⟨rfl, rfl, fun g => State.recomputeTargets_supervision _ g, State.recomputeTargets_current _⟩

/-- Where the change of P is taken first, the entry into ACTIVE moves the Round Controller from the counted state (R53, R155;
log 6). -/
theorem State.takeEntry_last_moves (s : State) :
    ({ s with eligible := s.eligibleNow } : State).RoundMoves (s.takeEntry false) :=
  (State.deliverEligible_moves s false).trans (State.roundEntersActive_moves _)

/-- Where the entry is taken first, the change of P follows it (R53, R155; log 6). -/
theorem State.takeEntry_first_moves (s : State) :
    s.RoundMoves s.roundEntersActive
      ∧ ({ s.roundEntersActive with eligible := s.eligibleNow } : State).RoundMoves (s.takeEntry true) := by
  have h := State.roundEntersActive_moves s
  refine ⟨h, ?_⟩
  rw [← h.eligibleNow]
  exact State.deliverEligible_moves _ false

/-- After the entry P is counted, in either order. -/
theorem State.takeEntry_counted (s : State) (b : Bool) : EligibleCounted (s.takeEntry b) := by
  unfold State.takeEntry
  cases b
  · have h := State.roundEntersActive_moves (s.deliverEligible false)
    unfold EligibleCounted
    rw [if_neg (by decide), h.eligibleNow, h.eligible]
    exact State.deliverEligible_counted s false
  · exact State.deliverEligible_counted _ false

/-! ## The flight (07, 08) -/

/-- Returning a frame changes the queue and the flight alone. -/
theorem State.returnFrame_spec (s : State) (f : Frame) :
    s.returnFrame f
      = { s with queue := returned s.queue f (s.isCurrent f), link := { s.link with inFlight := none } } := rfl

/-- The receiver in WAIT, and nothing else. -/
theorem State.toWait_spec (s : State) (b : Bool) :
    s.toWait b = { s with link := { s.link with receiver := .wait, afterEndMark := b, ownOnWire := false } } := rfl

/-! ## The end of LOADING (10) -/

/-- A load that fails leaves the code, CONFIG_FAULT and targets that are current, and keeps every other block (R158, R177). -/
theorem State.loadFault_spec (s : State) (c : FaultCode) :
    s.loadFault c =
        { s with
          loader := { s.loader with faultCode := some c, byteDeadline := none, bytes := [] }
          life := { s.life with nodeState := .configFault }
          fanA := (s.loadFault c).fanA
          fanB := (s.loadFault c).fanB }
      ∧ s.SameSupervision (s.loadFault c) ∧ TargetsCurrent (s.loadFault c) :=
  ⟨rfl, fun g => State.recomputeTargets_supervision _ g, State.recomputeTargets_current _⟩

/-- The end of a good load, from a state `y` that has its configuration: the sample deadlines and sums it is given, the own
entry, the windows, P and the targets. -/
theorem State.settle_spec (y : State) (d : Vector Deadline 8) (l : Byte) (v : Verdict) (h : y.isActive = false) :
    ∃ t, (({ y with sampleDeadlines := d, localDemand := l, standing := v } :
            State).formOwnEntry.openWindows.deliverEligible false).recomputeTargets = t
      ∧ t = { y with
          sampleDeadlines := d
          localDemand := l
          standing := v
          peers := t.peers
          eligible := t.eligible
          fanA := t.fanA
          fanB := t.fanB }
      ∧ EligibleCounted t ∧ TargetsCurrent t := by
  generalize hx : ({ y with sampleDeadlines := d, localDemand := l, standing := v } : State) = x
  have ha : x.formOwnEntry.openWindows.isActive = false := by rw [← hx]; exact h
  rw [State.deliverEligible_notActive _ _ ha]
  have hx' : x.formOwnEntry.openWindows = { y with
          sampleDeadlines := d
          localDemand := l
          standing := v
          peers := x.formOwnEntry.peers
          fanA := x.openWindows.fanA
          fanB := x.openWindows.fanB } := by subst hx; rfl
  rw [hx']
  exact ⟨_, rfl, rfl, rfl, State.recomputeTargets_current _⟩

/-- A load that succeeds changes these blocks and no other; P is counted and the targets are current (R3, R58, R76, R86, R98,
R105, R157, R176). -/
theorem State.loadGood_spec (s : State) (g : StartImage) :
    ∃ y t : State, s.loadGood g = t
      ∧ y = { s with
          image := some g
          loader := { s.loader with byteDeadline := none, bytes := [] }
          life := { s.life with nodeState := .listening, listenDeadline := some (s.now + g.listenInterval) } }
      ∧ t = { y with
          sampleDeadlines := y.armSamples.sampleDeadlines
          localDemand := y.localDemandNow
          standing := y.standingNow
          peers := t.peers
          eligible := t.eligible
          fanA := t.fanA
          fanB := t.fanB }
      ∧ EligibleCounted t ∧ TargetsCurrent t := by
  unfold State.loadGood
  generalize hy : ({ s with
      image := some g
      loader := { s.loader with byteDeadline := none, bytes := [] }
      life := { s.life with nodeState := .listening, listenDeadline := some (s.now + g.listenInterval) } } : State) = y
  obtain ⟨t, ht, hf, he, hc⟩ := State.settle_spec y y.armSamples.sampleDeadlines y.localDemandNow y.standingNow
    (by rw [← hy]; rfl)
  exact ⟨y, t, ht, rfl, hf, he, hc⟩

end Sys2Proof.Machine
end

