-- ==== Sys2Proof/Laws/PerInstr.lean ====
section
/-! SUPPORT. The family `CarriedFrame`, one lemma per command: a command that carries a frame is the one the frame is
dispatched as (R117). -/
namespace Sys2Proof.Laws.CarriedFrame

/-- Whatever frame a command carries, the command is what that frame comes as, from some station. -/
def Statement (i : Instr) : Prop :=
  ∀ f, i.carriedFrame = some f → ∃ a, Machine.receiveCommand a f = i

theorem powerOn : Statement .powerOn := nofun

theorem resetLineAsserted : Statement .resetLineAsserted := nofun

theorem resetLineReleased : Statement .resetLineReleased := nofun

theorem imageByteArrives (late : Bool) (value : Byte) : Statement (.imageByteArrives late value) := nofun

theorem memoryReadRefused : Statement .memoryReadRefused := nofun

theorem byteDeadlineExpires : Statement .byteDeadlineExpires := nofun

theorem sampleWord (word : Word16) : Statement (.sampleWord word) := nofun

theorem sampleDeadlineExpires (channel : Channel) : Statement (.sampleDeadlineExpires channel) := nofun

theorem tachEdge (fan : FanId) : Statement (.tachEdge fan) := nofun

theorem windowDeadlineExpires (fan : FanId) : Statement (.windowDeadlineExpires fan) := nofun

theorem fallDeadlineExpires (fan : FanId) : Statement (.fallDeadlineExpires fan) := nofun

theorem silenceDeadlineExpires (station : Station) : Statement (.silenceDeadlineExpires station) := nofun

theorem lostDeadlineExpires (station : Station) : Statement (.lostDeadlineExpires station) := nofun

theorem receiveJoin (source : Station) (signature : Word16) (demand : Byte) : Statement (.receiveJoin source signature demand) :=
  fun _ h => ⟨source, by cases h; rfl⟩

theorem receiveStatus (source : Station) (fields : StatusFields) : Statement (.receiveStatus source fields) :=
  fun _ h => ⟨source, by cases h; rfl⟩

theorem receiveAlarm (source : Station) (records : List AlarmRecord) : Statement (.receiveAlarm source records) :=
  fun _ h => ⟨source, by cases h; rfl⟩

theorem receiveAck (source : Station) (pairs : List AckPair) : Statement (.receiveAck source pairs) :=
  fun _ h => ⟨source, by cases h; rfl⟩

theorem receivePropose (source : Station) (round : Byte) (channel : Channel) (reading : HalfDegrees) : Statement (.receivePropose source round channel reading) :=
  fun _ h => ⟨source, by cases h; rfl⟩

theorem receiveVote (source : Station) (round : Byte) (verdict : Verdict) : Statement (.receiveVote source round verdict) :=
  fun _ h => ⟨source, by cases h; rfl⟩

theorem receiveWithdraw (source : Station) (round : Byte) : Statement (.receiveWithdraw source round) :=
  fun _ h => ⟨source, by cases h; rfl⟩

theorem receiveCommit (source : Station) (round : Byte) (concurSet : StationSet) : Statement (.receiveCommit source round concurSet) :=
  fun _ h => ⟨source, by cases h; rfl⟩

theorem receiveLeave (source : Station) : Statement (.receiveLeave source) := fun _ h => ⟨source, by cases h; rfl⟩

theorem malformedFrameDiscarded (frame : RawFrame) : Statement (.malformedFrameDiscarded frame) := nofun

theorem receptionFailure (cause : ReceptionCause) : Statement (.receptionFailure cause) := nofun

theorem idleGapElapsed (recessive : Nat) : Statement (.idleGapElapsed recessive) := nofun

theorem beginTransmission (wire : List Bool) : Statement (.beginTransmission wire) := nofun

theorem arbitrationLost : Statement .arbitrationLost := nofun

theorem transmitFault (wire : List Bool) : Statement (.transmitFault wire) := nofun

theorem frameCompletes : Statement .frameCompletes := nofun

theorem listenDeadlineExpires : Statement .listenDeadlineExpires := nofun

theorem recoveryDeadlineExpires : Statement .recoveryDeadlineExpires := nofun

theorem statusDeadlineExpires : Statement .statusDeadlineExpires := nofun

theorem roundDeadlineExpires : Statement .roundDeadlineExpires := nofun

theorem graceDeadlineExpires : Statement .graceDeadlineExpires := nofun

theorem node : Statement .node := nofun

theorem round : Statement .round := nofun

theorem peer (station : Byte) : Statement (.peer station) := nofun

theorem channel (channel : Byte) : Statement (.channel channel) := nofun

theorem fan (fan : Byte) : Statement (.fan fan) := nofun

theorem ackLocal (channels : ChannelSet) : Statement (.ackLocal channels) := nofun

theorem ackRemote (station : Byte) (channels : ChannelSet) : Statement (.ackRemote station channels) := nofun

theorem leave : Statement .leave := nofun

theorem unknownCommand (code : Byte) : Statement (.unknownCommand code) := nofun

theorem startMarkReceived : Statement .startMarkReceived := nofun

theorem faultedFrameReceptionEnds : Statement .faultedFrameReceptionEnds := nofun

end Sys2Proof.Laws.CarriedFrame
end

