-- ==== Sys2Proof/Laws/Readback.lean ====
section
/-! SUPPORT. What reading a transmission back against the wire gives: bits read as they were sent go on, and the first that was
not decides (07 R130, R132). -/
namespace Sys2Proof.Machine

@[simp] theorem keyOutcome_same (b : Bool) : keyOutcome b b = .goesOn := by cases b <;> rfl

@[simp] theorem bitOutcome_same (b : Bool) : bitOutcome b b = .goesOn := by simp [bitOutcome]

/-- Bits read as they were sent leave the rest of the bits to the rest of the levels, and so much less of the key. -/
theorem readBackFrom_append (key : Nat) (same sent read : List Bool) :
    readBackFrom key (same ++ sent) (same ++ read) = readBackFrom (key - same.length) sent read := by
  induction same generalizing key with
  | nil => simp
  | cons b rest ih =>
    have h : (if key = 0 then bitOutcome b b else keyOutcome b b) = .goesOn := by split <;> simp
    simp only [List.cons_append, readBackFrom, h, ih, List.length_cons]
    congr 1
    omega

/-- A whole frame read back as it was sent so far. -/
theorem readBack_append (w : RawFrame) (same sent read : List Bool) (h : wireBits w = false :: same ++ sent) :
    readBack w (false :: same ++ read) = readBackFrom (keyPeriods w - same.length) sent read := by
  have h' : stuff false 1 (fieldBits w) ++ endMark = same ++ sent := by
    simpa [wireBits] using h
  show readBackFrom (keyPeriods w) (stuff false 1 (fieldBits w) ++ endMark) (same ++ read) = _
  rw [h', readBackFrom_append]

/-- A start mark the wire did not carry is a fault (R132). -/
@[simp] theorem readBack_noStart (w : RawFrame) (read : List Bool) : readBack w (true :: read) = .faulted := rfl

/-- A frame whose levels are all those it sends has been driven to its end. -/
theorem readBack_whole (w : RawFrame) (more : List Bool) : readBack w (wireBits w ++ more) = .completed := by
  have h := readBack_append w (stuff false 1 (fieldBits w) ++ endMark) [] more (by simp [wireBits])
  have e : wireBits w = false :: (stuff false 1 (fieldBits w) ++ endMark) := rfl
  rw [e]
  exact h

/-- What a lost arbitration leaves: the frame back in the queue, nothing in flight, and the receiver with a frame that is not
the node's own (R131, R139). -/
theorem State.loseArbitration_spec (s : State) (f : Frame) :
    s.loseArbitration f
      = { s with
          queue := returned s.queue f (s.isCurrent f)
          link := { s.link with inFlight := none, ownOnWire := false } } := rfl

end Sys2Proof.Machine
end

