-- ==== Sys2Proof/Machine/Port.lean ====
section
/-! DEFINITION. The Diagnostic Port byte by byte (11 R178): operations beside the step, since no row of the table gives a
byte at the port (log 15). A request taken whole is the command of its row. -/
namespace Sys2Proof.Machine

/-- The command that a request spells once it is whole: its code byte and the argument bytes that code requires (R124,
R178). An unknown code is whole at once. -/
def requestCommand : List Byte → Option Instr
  | [] => none
  | code :: rest =>
    match code.toNat, rest with
    | 1, _ => some .node
    | 2, _ => some .round
    | 3, [a] => some (.peer a)
    | 4, [c] => some (.channel c)
    | 5, [f] => some (.fan f)
    | 6, [x] => some (.ackLocal x)
    | 7, [a, x] => some (.ackRemote a x)
    | 8, _ => some .leave
    | 3, _ => none
    | 4, _ => none
    | 5, _ => none
    | 6, _ => none
    | 7, _ => none
    | _, _ => some (.unknownCommand code)

/-- The request so far once byte `b` has arrived: a byte in the response phase abandons the response (R178). -/
def State.requestWith (s : State) (b : Byte) : List Byte :=
  match s.port with
  | some (.request l) => l ++ [b]
  | some (.response _ _) => [b]
  | none => [b]

/-- The port receives a byte: the request goes on, or is taken whole and its command run (R178). -/
def State.portReceive (b : Byte) (s : State) : Host.Outcome State Fault Refusal :=
  if s.resetLine then .next s
  else
    let l := s.requestWith b
    match requestCommand l with
    | some c => exec c { s with port := some (.request l) }
    | none => .next { s with port := some (.request l) }

/-- The board controller reads a response byte; the transaction ends with the last (R178). -/
def State.portRead (s : State) : Option (Byte × State) :=
  match s.port with
  | some (.response l n) =>
    match l[n]? with
    | some b =>
      some (b, { s with port := if n + 1 < l.length then some (.response l (n + 1)) else none })
    | none => none
  | _ => none

end Sys2Proof.Machine
end

