-- ==== Sys2Proof/Tests/Slice0.lean ====
section
/-! SUPPORT. The model's own tests: ill-formed commands refused, the spec's worked examples, one small step or two for each
command, and for every statement with hypotheses a state and operands that meet them. -/
namespace Sys2Proof.Tests

open Machine

/-! ## A small enclosure -/

/-- The curve of 03 section 3.8. -/
def channelZero : ChannelConfig :=
  { enabled := true, mode := .level, corroborating := true, criticalEnabled := true, persistence := 2, hysteresis := 10,
    highLimit := 150, criticalHigh := 180, criticalRelease := 160, t0 := 80, t1 := 100, t2 := 130, t3 := 160, d0 := 40,
    d1 := 80, d2 := 160, d3 := 255 }

/-- A ONCE channel (03 section 3.9). -/
def channelOnce : ChannelConfig := { channelZero with mode := .once, corroborating := false, criticalEnabled := false }

/-- A channel that is not enabled. -/
def channelOff : ChannelConfig := { channelZero with enabled := false }

/-- The shared parameters of 10 section 10.3 with a node at address 4. -/
def sample : StartImage :=
  { address := 4, k := 3, kMin := 2, statCode := 4, silenceMultiple := 3, lostCode := 6, roundSeconds := 10,
    graceSeconds := 15, sampleSeconds := 2, trust := false, fallStep := 8, stallFloor := 40
    fanA := { weights := (Vector.replicate 16 .none).set 4 .full |>.set 5 .quarter, floor := 60 }
    fanB := { weights := (Vector.replicate 16 .none).set 4 .full |>.set 5 .full, floor := 40 }
    channels := (Vector.replicate 8 channelOff).set 0 channelZero |>.set 4 channelOnce }

/-- A watch record that has taken one reading. -/
def seen (x : HalfDegrees) : WatchRecord := { WatchRecord.reset with reading := .value x }

/-- The own entry of an ACTIVE node with local demand 120. -/
def ownEntry : PeerEntry :=
  { PeerEntry.reset with presence := .present, signatureState := .isMatch, signature := some 226, demand := 120 }

/-- A PRESENT, MATCH peer with demand 90, last heard at 9000 ms. -/
def peerFive : PeerEntry :=
  { PeerEntry.reset with
    presence := .present, signatureState := .isMatch, signature := some 226, demand := 90, lastHeard := some 9000
    silenceDeadline := some 12000 }

/-- A fan that has settled at 120. -/
def settled : FanRecord :=
  { FanRecord.reset with
    target := 120, duty := 120, windowDeadline := some 10500, windowQualifies := true, reason := .station 4 }

/-- An ACTIVE node at 10000 ms, both fans settled at the local demand of 120, station 5 PRESENT, the link idle. -/
def node : State :=
  { State.reset with
    now := 10000
    image := some sample
    life := { LifeCycle.reset with nodeState := .active, statusDeadline := some 11000 }
    sampleDeadlines := (Vector.replicate 8 none).set 0 (some 11000) |>.set 4 (some 11000)
    channels := (Vector.replicate 8 WatchRecord.reset).set 0 (seen 115) |>.set 4 (seen 100)
    localDemand := 120
    peers := (Vector.replicate 16 PeerEntry.reset).set 4 ownEntry |>.set 5 peerFive
    eligible := 2
    fanA := settled
    fanB := settled
    link := { Link.reset with receiver := .idle } }

/-- The node with a frame on the wire from another station. -/
def hearing : State := { node with link := { node.link with receiver := .receiving } }

/-- The node in another state of its life. -/
def node.as (n : NodeState) : State := { node with life := { LifeCycle.reset with nodeState := n } }

/-- The node with round 7 open, proposed by station 5. -/
def opened : State :=
  { hearing with round :=
    { RoundRecord.reset with
      state := .opened, number := 7, proposers := single 5, ownVerdict := some .refuse
      reason := some { station := 5, channel := 1, reading := 190 }
      roundDeadline := some 15000 } }

/-- The state a command leaves. -/
def after (c : Instr) (s : State) : State :=
  match exec c s with
  | .next t => t
  | .fault _ | .refused _ => s

/-! ## Ill-formed commands (WellFormed) -/

theorem test_illFormed_alarm_empty : (Instr.receiveAlarm 1 []).wellFormed = false := by decide

theorem test_illFormed_alarm_reading :
    (Instr.receiveAlarm 1 [{ channel := 0, event := .rise, needsAck := false, reading := 384 }]).wellFormed = false := by
  decide

theorem test_illFormed_alarm_fault :
    (Instr.receiveAlarm 1 [{ channel := 0, event := .fault, needsAck := false, reading := 1 }]).wellFormed = false := by
  decide

theorem test_illFormed_ack_five :
    (Instr.receiveAck 1 (List.replicate 5 { station := 2, channels := 1 })).wellFormed = false := by decide

theorem test_illFormed_ack_empty : (Instr.receiveAck 1 [{ station := 2, channels := 0 }]).wellFormed = false := by decide

theorem test_illFormed_propose : (Instr.receivePropose 1 3 0 (-129)).wellFormed = false := by decide

/-- A STATUS with these round fields. -/
def statusOf (r : RoundState) (n : Byte) (v : Option Verdict) (p : StationSet) (d : Byte) : StatusFields :=
  { demand := d, raised := 0, unacked := 0, faulted := 0, fanAFailed := false, fanBFailed := false, critical := false,
    shutdownHeld := false, roundNumber := n, roundState := r, verdict := v, proposers := p, signature := 226 }

theorem test_illFormed_status : (Instr.receiveStatus 1 (statusOf .opened 1 none 0 0)).wellFormed = false
    ∧ (Instr.receiveStatus 1 (statusOf .idle 1 none 2 0)).wellFormed = false := by decide

theorem test_illFormed_malformed_is_valid :
    (Instr.malformedFrameDiscarded (encodeRaw 3 (.vote 7 .concur))).wellFormed = false := by decide

theorem test_illFormed_unknownCommand : (Instr.unknownCommand 8).wellFormed = false
    ∧ (Instr.unknownCommand 9).wellFormed = true := by decide

theorem test_wellFormed_malformed :
    (Instr.malformedFrameDiscarded { cls := 2, source := 3, kind := 6, payload := [7, 3] }).wellFormed = true := by decide

/-! ## The spec's worked examples -/

/-- 03 section 3.8. -/
theorem test_curve : [70, 90, 100, 115, 117, 145, 170].map (fun x => (channelZero.curve x).toNat)
    = [40, 60, 80, 120, 125, 207, 255] := by decide

/-- 10 section 10.3. -/
theorem test_signature : sample.signature = 226 ∧ { sample with graceSeconds := 20 }.signature = 261 := by decide

/-- The record of 03 section 3.9 before its first step. -/
def onceStart : WatchRecord := WatchRecord.reset

/-- The first seven steps of 03 section 3.9. -/
theorem test_once_rises_and_falls :
    ([148, 152, 149, 151, 155, 139, 138].foldl (fun w x => w.takeSample channelOnce (.valid x)) onceStart)
      = { seen 138 with reportState := .unacked, lastReported := .raised } := by decide

/-- Steps 8 to 10 of 03 section 3.9. -/
theorem test_once_holds_its_rise :
    (((({ seen 138 with reportState := .unacked, lastReported := .raised }).takeSample channelOnce .fault).takeSample
        channelOnce .fault).acknowledge .once)
      = { WatchRecord.reset with
          reading := .fault, condition := .raised, faulted := true, reportState := .unacked, lastReported := .raised } := by
  decide

/-- The quorum table of R35, P from 0 to 4 with K = 3 and Kmin = 2. -/
theorem test_quorum : [0, 1, 2, 3, 4].map (fun p => { node with eligible := p }.quorum) = [2, 2, 2, 3, 3] := by decide

/-- 05 section 5.9: a silent station at quarter weight and at full weight. -/
theorem test_weights : weighted .quarter 255 = 63 ∧ weighted .half 255 = 127 ∧ weighted .full 255 = 255
    ∧ weighted .none 255 = 0 := by decide

/-- The newer-round window (00 "Round numbers"). -/
theorem test_newerRound : newerRound 5 4 = true ∧ newerRound 4 4 = false ∧ newerRound 131 4 = true
    ∧ newerRound 132 4 = false ∧ newerRound 3 250 = true := by decide

/-- Two proposers of 12 section 12.2 (keys 001 0010 and 001 1001), as the first seven field bits. -/
theorem test_keys : (fieldBits (encodeRaw 2 (.propose 5 0 186))).take 7 = [false, false, true, false, false, true, false]
    ∧ (fieldBits (encodeRaw 9 (.propose 5 0 186))).take 7 = [false, false, true, true, false, false, true] := by decide

/-- A VOTE reads back from the wire, stuffed, checked and marked (R118, R126, R137). -/
theorem test_wire : receptionCommand (reception ((wireBits (encodeRaw 3 (.vote 7 .concur))).drop 1))
    = some (.receiveVote 3 7 .concur) := by decide +kernel

/-- A flipped check bit is a check mismatch (R137). -/
theorem test_wire_damaged :
    reception (((wireBits (encodeRaw 3 (.vote 7 .concur))).drop 1).modify 30 (!·)) = .failed .checkMismatch := by decide +kernel

/-- Seven equal bits are a stuff violation (R137). -/
theorem test_wire_violation : reception (List.replicate 6 false) = .failed .stuffViolation := by decide

/-! ## Front of the queue and time -/

theorem test_front : step { node with pending := [.node, .leave] } = exec .node { node with pending := [.leave] } := rfl

theorem test_idle_none : node.pending = [] ∧ node.dueCommands = [] := by decide

theorem test_idle_one : { node with now := 10500, fanB := FanRecord.reset }.dueCommands = [.windowDeadlineExpires .a] := by
  decide

theorem test_idle_two : { node with now := 10500 }.dueCommands
    = [.windowDeadlineExpires .a, .windowDeadlineExpires .b] := by decide

theorem test_leaves : exec .node node = .next (after .node node) := rfl

/-! ## Reset and load -/

/-- A loader that has read `n` zero bytes and waits for the next. -/
def reading (n attempt : Nat) : State :=
  { State.reset with loader :=
    { Loader.reset with attempt := attempt, byteDeadline := some 10, bytes := List.replicate n 0 } }

theorem test_power : (after .powerOn { node with shutdownLatch := true }).shutdownLatch = false
    ∧ (after .powerOn node).loader.byteDeadline = some 10010
    ∧ (after .powerOn { node with resetLine := true }).loader.byteDeadline = none := by decide

theorem test_reset_line : (after .resetLineAsserted { node with shutdownLatch := true }).shutdownLatch = true
    ∧ (after .resetLineReleased (after .resetLineAsserted node)).loader.byteDeadline = some 10010
    ∧ after .resetLineReleased node = node := by decide

theorem test_byte_kept : (reading 190 1).loader.byteDeadline.isSome = true ∧ (reading 190 1).loader.bytes.length + 1 < 192
    ∧ (after (.imageByteArrives false 7) (reading 190 1)).loader.bytes.length = 191 := by decide +kernel

theorem test_byte_late : after (.imageByteArrives true 7) (reading 3 1) = reading 3 1
    ∧ after (.imageByteArrives false 7) node = node := by decide

theorem test_read_refused : (after .memoryReadRefused (reading 3 2)).loader.attempt = 3
    ∧ (after .memoryReadRefused (reading 3 3)).loader.faultCode = some .memorySilent
    ∧ (reading 3 3).loader.byteDeadline.isSome = true := by decide

theorem test_read_late : Due (reading 0 1).loader.byteDeadline { reading 0 1 with now := 10 }.now :=
  ⟨10, rfl, by decide⟩

theorem test_read_late_effect : (after .byteDeadlineExpires { reading 0 1 with now := 10 }).loader.attempt = 2
    ∧ after .byteDeadlineExpires (reading 0 1) = reading 0 1 := by decide

/-- The image of the sample configuration, no channel enabled, with its check. -/
def goodImage : List Byte :=
  [4, 3, 2, 4, 3, 6, 10, 15, 2, 0, 8, 40] ++ [0, 7, 0, 0, 60] ++ [0, 15, 0, 0, 40] ++ List.replicate 168 0 ++ [0, 219]

theorem test_goodImage : goodImage.length = 192 ∧ imageFault goodImage = none := by decide +kernel

theorem test_badImage : imageFault (List.replicate 192 0) = some .quorum
    ∧ imageFault (List.replicate 191 0 ++ [1]) = some .checksum := by decide +kernel

/-- The loader one byte short of the good image. -/
def almost : State :=
  { reading 0 1 with loader := { (reading 0 1).loader with bytes := goodImage.take 191 } }

theorem test_last_byte : almost.loader.byteDeadline.isSome = true ∧ almost.loader.bytes.length + 1 = 192
    ∧ almost.loader.bytes ++ [219] = goodImage
    ∧ (after (.imageByteArrives false 219) almost).life.nodeState = .listening
    ∧ (after (.imageByteArrives false 219) almost).life.listenDeadline = some 6000 := by decide +kernel

theorem test_last_byte_bad : (reading 191 1).loader.byteDeadline.isSome = true
    ∧ (reading 191 1).loader.bytes.length + 1 = 192
    ∧ (after (.imageByteArrives false 0) (reading 191 1)).loader.faultCode = some .quorum := by decide +kernel

/-! ## Sensors -/

theorem test_word_form : node.running = true ∧ (0x05FC : Word16).extractLsb' 0 2 = 0
    ∧ (node.channelCfg (wordChannel 0x05FC)).enabled = true ∧ wordReading 0x05FC = 383 ∧ wordReading 0x0E00 = -128
    ∧ (0x05FC : Word16).getLsbD 12 = false := by decide

theorem test_word_fault_form : wordReading 0x0600 = 384 ∧ wordReading 0x0DFC = -129 ∧ (0x1000 : Word16).getLsbD 12 = true
    ∧ wordSpareClear 0x0600 = true := by decide

theorem test_word_taken : ((after (.sampleWord 0x01CC) node).watch 0).reading = .value 115
    ∧ (after (.sampleWord 0x01CC) node).sampleDeadlines[0] = some 12000
    ∧ ((after (.sampleWord 0x1000) node).watch 0).faulted = true := by decide

theorem test_word_discarded : after (.sampleWord 0x01CD) node = node ∧ after (.sampleWord 0x21CC) node = node
    ∧ after (.sampleWord 0x01CC) State.reset = State.reset := by decide

theorem test_sample_deadline : Due node.sampleDeadlines[0] { node with now := 11000 }.now := ⟨11000, by decide, by decide⟩

theorem test_sample_deadline_effect :
    ((after (.sampleDeadlineExpires 0) { node with now := 11000 }).watch 0).reading = .fault
    ∧ (after (.sampleDeadlineExpires 0) { node with now := 11000 }).localDemand = 255 := by decide

/-- An ACTIVE node queues the FAULT record with needs-ack clear and reading 0, and the RISE of a fault sample at the high limit
(R66). -/
theorem test_sample_reported :
    (after (.sampleWord 0x1000) node).queue
      = [.alarm [{ channel := 0, event := .fault, needsAck := false, reading := 0 }]]
    ∧ sampleRecords 0 channelZero .fault { seen 1 with riseCount := 1 }
      = [{ channel := 0, event := .fault, needsAck := false, reading := 0 },
        { channel := 0, event := .rise, needsAck := false, reading := 150 }]
    ∧ (alarmRecord 4 channelOnce .rise { seen 155 with reportState := .unacked }).needsAck = true
    ∧ (after (.sampleWord 0x1000) (node.as .quiet)).queue = [] := by decide

/-- A RISE that is not reported, while the channel is UNACKED (R69). -/
theorem test_sample_unreported : conditionEvent channelOnce (.valid 155) { seen 1 with riseCount := 1 } = some .rise
    ∧ sampleRecords 4 channelOnce (.valid 155) { seen 1 with riseCount := 1, reportState := .unacked } = []
    ∧ sampleRecords 4 channelOnce (.valid 155) (seen 1) = [] := by decide

/-- The node one sample before its channel 0 is CRITICAL, in an open round and not (R79). -/
def heating : State := { node with channels := node.channels.set 0 { seen 115 with criticalCount := 1 } }

/-- Node critical begins: a round of its own from IDLE, a co-proposal in an open round, and no VOTE after it (R24, R25, R83). -/
theorem test_critical_begins : wordReading 0x02F8 = 190
    ∧ (after (.sampleWord 0x02F8) heating).round.proposers = single 4
    ∧ (after (.sampleWord 0x02F8) heating).queue = [.propose 1 0 190]
    ∧ (after (.sampleWord 0x02F8) { heating with round := opened.round }).round.proposers = insertMember (single 5) 4
    ∧ (after (.sampleWord 0x02F8) { heating with round := opened.round }).queue = [.propose 7 0 190] := by decide

/-- The node a proposer of round 7 beside station 5, its channel 0 one sample before it is CALM (R80). -/
def cooling : State :=
  { opened with
    channels := opened.channels.set 0 { seen 190 with criticalState := .critical, criticalCount := 1 }
    standing := .concur
    queue := [.propose 7 0 190]
    round := { opened.round with proposers := insertMember (single 5) 4, ownVerdict := some .concur } }

/-- Node critical ends: the node withdraws, and the round goes on only while another station asks for it (R38, R40). -/
theorem test_critical_ends : cooling.nodeCritical = true ∧ (after (.sampleWord 0x01CC) cooling).nodeCritical = false
    ∧ (after (.sampleWord 0x01CC) cooling).round.proposers = single 5
    ∧ (after (.sampleWord 0x01CC) cooling).queue = [.withdraw 7]
    ∧ (after (.sampleWord 0x01CC) { cooling with round := { cooling.round with proposers := single 4 } }).round.state
      = .idle := by decide

/-- The own verdict turns to CONCUR with a corroborating RISE, and a VOTE says so (R34). -/
theorem test_verdict_turns :
    (after (.sampleWord 0x0270) { opened with channels := opened.channels.set 0 { seen 115 with riseCount := 1 } }).round.ownVerdict
      = some .concur
    ∧ (after (.sampleWord 0x0270) { opened with channels := opened.channels.set 0 { seen 115 with riseCount := 1 } }).queue
      = [.alarm [{ channel := 0, event := .rise, needsAck := false, reading := 156 }], .vote 7 .concur] := by decide

/-- The reason of a proposal (R26). -/
theorem test_reason : cooling.reasonChannel = 0 ∧ cooling.reasonReading = 190
    ∧ { cooling with channels := cooling.channels.set 0 { WatchRecord.reset with reading := .fault, criticalState := .critical }
      }.reasonReading = 180 := by decide

/-- Sensor events, each way (R62). -/
theorem test_sensor_events : sensorEvent .fault (seen 1) = some .fault
    ∧ sensorEvent (.valid 3) ((seen 1).sense .fault) = some .restore
    ∧ sensorEvent .fault ((seen 1).sense .fault) = none ∧ sensorEvent (.valid 3) (seen 1) = none := by decide

/-- The condition machine at its boundaries: high limit 150, hysteresis 10, N = 2 (R63 to R65). -/
theorem test_condition : beyondHigh channelZero (.valid 150) = true ∧ beyondHigh channelZero (.valid 149) = false
    ∧ backWithin channelZero (.valid 140) = true ∧ backWithin channelZero (.valid 141) = false
    ∧ (seen 1).riseCount + 1 < channelZero.persistence
    ∧ { seen 1 with riseCount := 1 }.riseCount + 1 = channelZero.persistence
    ∧ { seen 1 with condition := .raised, fallCount := 1 }.fallCount + 1 = channelZero.persistence := by decide

/-- The critical machine at its boundaries: critical high 180, release 160, N = 2 (R79, R80). -/
theorem test_critical : channelZero.enabled = true ∧ channelZero.criticalEnabled = true
    ∧ ((seen 1).criticalStep channelZero (.valid 180)).criticalCount = 1
    ∧ ({ seen 1 with criticalCount := 1 }.criticalStep channelZero (.valid 180)).criticalState = .critical
    ∧ ({ seen 1 with criticalCount := 1 }.criticalStep channelZero (.valid 179)).criticalCount = 0
    ∧ ({ seen 1 with criticalState := .critical, criticalCount := 1 }.criticalStep channelZero (.valid 160)).criticalState
      = .calm
    ∧ ({ seen 1 with criticalState := .critical, criticalCount := 1 }.criticalStep channelZero (.valid 161)).criticalCount
      = 0 := by decide

theorem test_curve_good : channelZero.enabled = true ∧ curveGood channelZero = true := by decide

/-- Reports and acknowledgements by mode, each case's record (R67 to R69, R72, R73). -/
theorem test_modes : (seen 1).reportState = .clear ∧ ((seen 1).reported .edge).reportState = .unacked
    ∧ ackEvent .edge { seen 1 with lastReported := .raised } = some .fall
    ∧ ackEvent .edge { seen 1 with condition := .raised } = some .rise ∧ ackEvent .edge (seen 1) = none
    ∧ ackEvent .once { seen 1 with condition := .raised, unreportedRise := true } = some .rise
    ∧ ackEvent .once { seen 1 with unreportedRise := true } = none := by decide

/-- The node with its ONCE channel waiting for acknowledgement. -/
def waiting : State :=
  { hearing with
    channels := hearing.channels.set 4 { seen 155 with reportState := .unacked, lastReported := .raised } }

/-- The node with a RISE of its ONCE channel held back (R69). -/
def holding : State :=
  { hearing with
    channels := hearing.channels.set 4
      { seen 155 with reportState := .unacked, condition := .raised, unreportedRise := true } }

theorem test_ackLocal : waiting.resetLine = false ∧ waiting.running = true ∧ (16 : ChannelSet) ≠ 0
    ∧ ((after (.ackLocal 16) waiting).watch 4).reportState = .clear
    ∧ ((after (.ackLocal 1) waiting).watch 4).reportState = .unacked
    ∧ (after (.ackLocal 16) waiting).port = some (.response [0, 0] 0) := by decide

/-- A RISE held back while UNACKED is reported on acknowledgement, by the node's own command or by a peer's ACK (R73). -/
theorem test_ack_reports :
    (after (.ackLocal 16) holding).queue = [.alarm [{ channel := 4, event := .rise, needsAck := true, reading := 155 }]]
    ∧ (after (.receiveAck 5 [{ station := 4, channels := 16 }]) holding).queue
      = [.alarm [{ channel := 4, event := .rise, needsAck := true, reading := 155 }]]
    ∧ (after (.receiveAck 5 [{ station := 3, channels := 16 }]) holding).queue = [] := by decide

/-! ## Fans -/

theorem test_tach : node.fanA.windowDeadline.isSome = true ∧ (after (.tachEdge .a) node).fanA.edgeSeen = true
    ∧ after (.tachEdge .b) State.reset = State.reset := by decide

/-- The node with fan B falling from 255. -/
def falling : State := { node with fanB := { settled with duty := 255, fallDeadline := some 10000 } }

theorem test_fall : Due (falling.fan .b).fallDeadline falling.now := ⟨10000, rfl, by decide⟩

theorem test_fall_effect : (after (.fallDeadlineExpires .b) falling).fanB.duty = 247
    ∧ (after (.fallDeadlineExpires .b) falling).fanB.fallDeadline = some 10500
    ∧ (after (.fallDeadlineExpires .b) { falling with fanB := { falling.fanB with duty := 122 } }).fanB.fallDeadline = none := by
  decide

/-- The third window without an edge (05 section 5.9). -/
def stalling : State := { node with now := 10500, fanA := { settled with stallCount := 2 } }

theorem test_window : Due (stalling.fan .a).windowDeadline stalling.now := ⟨10500, rfl, by decide⟩

theorem test_window_effect : (after (.windowDeadlineExpires .a) stalling).fanA.condition = .failed
    ∧ (after (.windowDeadlineExpires .a) stalling).fanB.duty = 255
    ∧ ((after (.windowDeadlineExpires .a) stalling).peer 4).fanAFailed = true
    ∧ ((after (.windowDeadlineExpires .a) stalling).fan .a).condition ≠ (stalling.fan .a).condition
    ∧ stalling.image.isSome = true
    ∧ (after (.windowDeadlineExpires .b) stalling).fanB.stallCount = 1 := by decide

theorem test_counts : settled.CountsInStep := by
  unfold FanRecord.CountsInStep; decide

/-- The cases of R101 and R102 that change a state. -/
theorem test_windows : settled.windowQualifies = true ∧ settled.condition = .ok
    ∧ { settled with stallCount := 2 }.judgeWindow.condition = .failed
    ∧ { settled with stallCount := 2, edgeSeen := true }.judgeWindow.stallCount = 0
    ∧ { settled with condition := .failed, goodCount := 2, edgeSeen := true }.judgeWindow.condition = .ok
    ∧ { settled with condition := .failed, goodCount := 1, edgeSeen := true }.judgeWindow.goodCount = 2
    ∧ { settled with condition := .failed, goodCount := 2 }.judgeWindow.goodCount = 0 := by decide

/-- A duty in step with its target, and a falling one. -/
theorem test_follows : settled.Follows 40 ∧ falling.fanB.Follows 40 := by
  unfold FanRecord.Follows; decide

/-- A target above, at and below the duty (R95). -/
theorem test_duty_follows : (node.fanA.duty).toNat < ({ node with shutdownLatch := true }.targetNow .a).toNat
    ∧ node.targetNow .a = node.fanA.duty
    ∧ ({ falling with fanB := { falling.fanB with fallDeadline := none } }.targetNow .b).toNat < 255
    ∧ (falling.recomputeTargets.fan .b).fallDeadline = some 10000 := by decide

theorem test_unforced : (∀ a, node.weightedDemand .a a ≤ 120) ∧ node.weightedDemand .a 4 = 120
    ∧ ({ node with localDemand := 0 }.setPeer 4 { ownEntry with demand := 0 }).unforcedTarget .a = 60 := by decide

theorem test_forced : { node with life := { node.life with nodeState := .loading } }.targetNow .a = 255
    ∧ (State.setFan node .b { settled with condition := .failed }).targetNow .a = 255
    ∧ { opened with round := { opened.round with state := .committed } }.reasonNow .a = .forced .roundDecided
    ∧ { node with shutdownLatch := true }.reasonNow .a = .forced .shutdownLatch
    ∧ (State.setFan node .b { settled with condition := .failed }).reasonNow .a = .forced .otherFan
    ∧ ({ node with localDemand := 0 }.setPeer 4 { ownEntry with demand := 0 }).reasonNow .a = .floor
    ∧ node.reasonNow .a = .station 4
    ∧ node.targetNow .a = node.unforcedTarget .a := by decide

/-- Each row of R19. -/
theorem test_effective : node.isOwn 4 = true ∧ node.isOwn 5 = false ∧ node.effectiveDemand 4 = 120
    ∧ node.effectiveDemand 5 = 90 ∧ node.effectiveDemand 6 = 0
    ∧ (node.setPeer 5 { peerFive with fanBFailed := true }).effectiveDemand 5 = 255
    ∧ (node.setPeer 5 { peerFive with presence := .silent }).effectiveDemand 5 = 255
    ∧ (node.setPeer 5 { peerFive with presence := .departed }).effectiveDemand 5 = 0 := by decide

/-! ## Peers -/

/-- The node as station 5's silence deadline comes. -/
def ageing : State := { node with now := 12000 }

theorem test_silence : Due (ageing.peer 5).silenceDeadline ageing.now := ⟨12000, by decide, by decide⟩

theorem test_silence_effect : (5 : Station) ≠ ageing.own ∧ (ageing.peer 5).presence = .present
    ∧ (ageing.peer 5).lastHeard = some 9000 ∧ ageing.now < 9000 + ageing.cfg.lostCode * 10000
    ∧ ((after (.silenceDeadlineExpires 5) ageing).peer 5).presence = .silent
    ∧ ((after (.silenceDeadlineExpires 5) ageing).peer 5).lostDeadline = some 69000
    ∧ (after (.silenceDeadlineExpires 5) ageing).fanB.duty = 255 := by decide

/-- The expiry at exactly last heard plus T_lost makes the entry DEPARTED at once (R8). -/
theorem test_silence_short :
    ((after (.silenceDeadlineExpires 5) { ageing with now := 69000 }).peer 5).presence = .departed := by decide

/-- The node with station 5 SILENT, at its lost deadline. -/
def losing : State :=
  { node with now := 69000 }.setPeer 5
    { peerFive with presence := .silent, silenceDeadline := none, lostDeadline := some 69000 }

theorem test_lost : Due (losing.peer 5).lostDeadline losing.now := ⟨69000, by decide, by decide⟩

theorem test_lost_effect : (5 : Station) ≠ losing.own ∧ (losing.peer 5).presence = .silent
    ∧ ((after (.lostDeadlineExpires 5) losing).peer 5).presence = .departed := by decide

/-- The silence of a peer lowers P and Q, and the votes already recorded commit the node, in an entry that falls SILENT or at
once DEPARTED (R18, R36; 12 section 12.3). -/
def outvoted : State :=
  ({ opened with
      now := 12000
      eligible := 3
      round := { opened.round with votes := (opened.round.votes.set 5 (some .concur)).set 6 (some .concur) } }.setPeer 6
    { peerFive with silenceDeadline := some 99000 })

theorem test_silence_commits : outvoted.quorum = 3 ∧ outvoted.concurCount = 2 ∧ EligibleCounted outvoted
    ∧ (after (.silenceDeadlineExpires 5) outvoted).quorum = 2
    ∧ (after (.silenceDeadlineExpires 5) outvoted).round.state = .committed
    ∧ (after (.silenceDeadlineExpires 5) outvoted).queue = [.commit 7 96]
    ∧ (after (.silenceDeadlineExpires 5) { outvoted with now := 69000 }).round.state = .committed
    ∧ (after (.lostDeadlineExpires 5) losing).round = losing.round := by unfold EligibleCounted; decide

theorem test_hears : hearing.Hears 5 := ⟨rfl, rfl, rfl, by decide⟩

theorem test_quiet_refresh : hearing.RefreshIsQuiet 5 ∧ opened.RefreshIsQuiet 5 :=
  ⟨Or.inr ⟨by unfold EligibleCounted; decide, by decide⟩, Or.inr ⟨by unfold EligibleCounted; decide, by decide⟩⟩

theorem test_receive_leave : ((after (.receiveLeave 5) hearing).peer 5).presence = .departed
    ∧ (after (.receiveLeave 5) hearing).eligible = 1 := by decide

theorem test_receive_join : ((after (.receiveJoin 6 226 33) hearing).peer 6).signatureState = .isMatch
    ∧ (after (.receiveJoin 6 226 33) hearing).eligible = 3
    ∧ ((after (.receiveJoin 6 261 33) hearing).peer 6).signatureState = .mismatch := by decide

theorem test_receive_status : validStatus (statusOf .idle 0 none 0 200) = true
    ∧ validStatus (statusOf .opened 3 none 1 200) = true
    ∧ (after (.receiveStatus 5 (statusOf .idle 0 none 0 200)) hearing).fanB.duty = 200 := by decide

/-- The round fields of a STATUS: OPEN opens, records a verdict, displaces an older round or is ignored; COMMITTED is adopted
without a concur set; a MISMATCH or an IDLE STATUS does nothing (R23, R29, R30, R33, R43). -/
theorem test_status_rounds :
    (after (.receiveStatus 5 (statusOf .opened 3 (some .concur) 48 90)) hearing).round.proposers = single 5
    ∧ (after (.receiveStatus 5 (statusOf .opened 3 (some .concur) 48 90)) hearing).round.votes[(5 : Station)] = some .concur
    ∧ (after (.receiveStatus 5 (statusOf .opened 3 (some .concur) 48 90)) hearing).queue = [.vote 3 .refuse]
    ∧ (after (.receiveStatus 5 (statusOf .opened 3 none 16 90)) hearing).round.state = .idle
    ∧ (after (.receiveStatus 5 (statusOf .opened 0 none 32 90)) hearing).round.state = .idle
    ∧ (after (.receiveStatus 5 (statusOf .opened 7 (some .refuse) 32 90)) opened).round.votes[(5 : Station)] = some .refuse
    ∧ (after (.receiveStatus 5 (statusOf .opened 7 none 32 90)) opened).round = opened.round
    ∧ (after (.receiveStatus 5 (statusOf .opened 134 none 32 90)) opened).round.number = 134
    ∧ (after (.receiveStatus 5 (statusOf .opened 135 none 32 90)) opened).round = opened.round := by decide

theorem test_status_commits :
    (after (.receiveStatus 5 (statusOf .halted 9 none 0 90)) opened).round.state = .committed
    ∧ (after (.receiveStatus 5 (statusOf .halted 9 none 0 90)) opened).round.concurSet = none
    ∧ (after (.receiveStatus 5 { statusOf .committed 9 none 0 90 with signature := 1 }) opened).round = opened.round
    ∧ (after (.receiveStatus 5 (statusOf .idle 9 none 0 90)) opened).round = opened.round := by decide

theorem test_receive_alarm :
    validFrame (.alarm [{ channel := 2, event := .rise, needsAck := true, reading := 383 }]) = true
    ∧ ((after (.receiveAlarm 5 [{ channel := 2, event := .rise, needsAck := true, reading := 383 }]) hearing).peer 5).raised
      = 4 := by decide

theorem test_receive_ack : validFrame (.ack [{ station := 4, channels := 16 }]) = true
    ∧ ((after (.receiveAck 5 [{ station := 4, channels := 16 }]) waiting).watch 4).reportState = .clear
    ∧ ((after (.receiveAck 5 [{ station := 3, channels := 16 }]) waiting).watch 4).reportState = .unacked := by decide

theorem test_conflict : hearing.link.receiver = .receiving ∧ hearing.link.ownOnWire = false ∧ hearing.running = true
    ∧ hearing.isOwn 4 = true ∧ (after (.receiveVote 4 7 .concur) hearing).life.nodeState = .conflict
    ∧ (after (.receiveVote 4 7 .concur) hearing).eligible = 1 := by decide

theorem test_conflict_again :
    (after (.receiveLeave 4) { hearing with life := { LifeCycle.reset with nodeState := .quiet } }).life.nodeState = .quiet := by
  decide

/-- A RECEIVE_ command with an invalid frame, and one that is the node's own transmission, only move the receiver to WAIT
(R116, R139; logs 11 and 12). -/
theorem test_undelivered : validFrame (.propose 7 0 384) = false
    ∧ after (receiveCommand 5 (.propose 7 0 384)) hearing
      = { hearing with link := { hearing.link with receiver := .wait, afterEndMark := true } }
    ∧ after (receiveCommand 4 (.vote 3 .concur)) { hearing with link := { hearing.link with ownOnWire := true } }
      = { hearing with link := { hearing.link with receiver := .wait, afterEndMark := true, ownOnWire := false } } := by
  decide

theorem test_malformed :
    (after (.malformedFrameDiscarded { cls := 0, source := 4, kind := 0, payload := [] }) hearing).link.receiver = .wait
    ∧ (after (.malformedFrameDiscarded { cls := 0, source := 4, kind := 0, payload := [] }) hearing).life.nodeState
      = .active := by decide

theorem test_reception_failure : (after (.receptionFailure .checkMismatch) hearing).link.afterEndMark = false
    ∧ (after (.receptionFailure .checkMismatch) hearing).gapNeeded = 16 := by decide

/-! ## Rounds -/

theorem test_propose : hearing.round.state = .idle ∧ legalReading 383 = true ∧ legalReading (-128) = true
    ∧ (hearing.peer 5).signatureState ≠ .mismatch ∧ (1 : Byte) ≠ hearing.round.lastClosed
    ∧ (after (.receivePropose 5 1 0 186) hearing).round.state = .opened
    ∧ (after (.receivePropose 5 1 0 186) hearing).queue = [.vote 1 .refuse] := by decide

theorem test_propose_ignored : (after (.receivePropose 5 0 0 186) hearing).round = hearing.round
    ∧ (after (.receivePropose 5 1 0 186)
      (hearing.setPeer 5 { peerFive with signatureState := .mismatch })).round = hearing.round := by decide

/-- A PROPOSE in an open round: merged, displacing, ignored; and answered with a VOTE or a PROPOSE (R25, R28, R29, R31). -/
theorem test_propose_open :
    (after (.receivePropose 6 7 0 186) (opened.setPeer 6 peerFive)).round.proposers = insertMember (single 5) 6
    ∧ (after (.receivePropose 6 7 0 186) (opened.setPeer 6 peerFive)).queue = []
    ∧ (after (.receivePropose 5 134 0 186) opened).round.number = 134
    ∧ (after (.receivePropose 5 134 0 186) opened).round.lastClosed = 7
    ∧ (after (.receivePropose 5 135 0 186) opened).round = opened.round
    ∧ (after (.receivePropose 7 8 0 186) cooling).queue = [.propose 8 0 190]
    ∧ (after (.receivePropose 7 8 0 186) cooling).round.proposers = insertMember (single 7) 4
    ∧ (after (.receivePropose 5 8 0 186) cooling).queue = [.commit 8 48] := by decide

/-- A sender that turns PRESENT with its PROPOSE: P changes and the commit test comes first (R18, R36). -/
theorem test_propose_silent :
    (after (.receivePropose 5 7 0 186) (opened.setPeer 5 { peerFive with presence := .silent })).eligible = 2
    ∧ (after (.receivePropose 5 7 0 186) { opened.setPeer 5 { peerFive with presence := .silent } with eligible := 1 }).round.votes[(5 : Station)]
      = some .concur := by decide

theorem test_propose_notActive :
    { hearing with life := { LifeCycle.reset with nodeState := .quiet } }.isActive = false := by decide

theorem test_vote : opened.round.state = .opened ∧ opened.round.number = 7
    ∧ (after (.receiveVote 5 7 .concur) opened).round.votes[(5 : Station)] = some .concur
    ∧ (after (.receiveVote 5 8 .concur) opened).round = opened.round := by decide

/-- The node open on round 7 with CONCUR from station 6, PRESENT and MATCH, and its own CONCUR. -/
def agreeing : State :=
  { (opened.setPeer 6 peerFive) with
    eligible := 3
    round := { opened.round with ownVerdict := some .concur, votes := opened.round.votes.set 6 (some .concur) } }

/-- One vote more makes C equal to Q = 3 (R36). -/
theorem test_commit_at_quorum : agreeing.isActive = true ∧ agreeing.concurCount = 2 ∧ agreeing.quorum = 3
    ∧ (after (.receiveVote 5 7 .concur) agreeing).round.state = .committed
    ∧ (after (.receiveVote 5 7 .concur) agreeing).queue = [.commit 7 112] := by decide

theorem test_commitTest : { agreeing with eligible := 2 }.quorum ≤ { agreeing with eligible := 2 }.concurCount
    ∧ agreeing.concurCount < agreeing.quorum
    ∧ ({ agreeing with eligible := 2 }.commitTest).round.graceDeadline = some 25000 := by decide

theorem test_commit_adopted : (after (.receiveCommit 5 9 3) opened).round.state = .committed
    ∧ (after (.receiveCommit 5 9 3) opened).round.reason = none
    ∧ (after (.receiveCommit 5 7 3) opened).round.reason = opened.round.reason
    ∧ (after (.receiveCommit 5 0 3) hearing).round.number = 0
    ∧ (after (.receiveCommit 5 0 3) hearing).fanA.duty = 255 := by decide

/-- The entry of a station that was not PRESENT: an IDLE record adopts whatever P does (R36, R42). -/
theorem test_commit_from_absent : (hearing.peer 6).presence = .absent ∧ hearing.round.state = .idle
    ∧ (after (.receiveCommit 6 5 3) hearing).round.state = .committed := by decide

/-- A station that returns with its VOTE: P changes and the commit test comes first (R18, R36). -/
theorem test_vote_from_silent :
    (after (.receiveVote 5 7 .refuse) { opened.setPeer 5 { peerFive with presence := .silent } with eligible := 1 }).eligible = 2
    ∧ ({ opened.setPeer 5 { peerFive with presence := .silent } with eligible := 1 }).isActive = true := by decide

/-- With T_grace 0 the commitment halts at once (R45). -/
theorem test_grace_zero :
    (after (.receiveCommit 5 9 3) { hearing with image := some { sample with graceSeconds := 0 } }).shutdownLatch = true := by
  decide

/-- The node committed on round 7, at the end of its grace. -/
def committed : State :=
  { node with now := 25000, round := { RoundRecord.reset with state := .committed, number := 7, graceDeadline := some 25000 } }

theorem test_grace : committed.round.state = .committed ∧ Due committed.round.graceDeadline committed.now :=
  ⟨rfl, 25000, rfl, by decide⟩

theorem test_grace_effect : (after .graceDeadlineExpires committed).shutdownLatch = true
    ∧ (after .graceDeadlineExpires committed).round.state = .halted
    ∧ ((after .graceDeadlineExpires committed).peer 4).shutdownHeld = true := by decide

theorem test_round_deadline : Due opened.round.roundDeadline { opened with now := 15000 }.now := ⟨15000, rfl, by decide⟩

theorem test_round_deadline_effect :
    (after .roundDeadlineExpires { opened with now := 15000 }).round.state = .idle
    ∧ (after .roundDeadlineExpires { opened with now := 15000 }).round.lastClosed = 7
    ∧ (opened.isActive && opened.nodeCritical) = false := by decide

/-- The node with its channel 0 CRITICAL. -/
def critical : State :=
  { opened with now := 15000, channels := opened.channels.set 0 { seen 190 with criticalState := .critical } }

theorem test_round_again : (critical.isActive && critical.nodeCritical) = true
    ∧ (after .roundDeadlineExpires critical).round.number = 8
    ∧ (after .roundDeadlineExpires critical).queue = [.propose 8 0 190] := by decide

theorem test_withdraw : member opened.round.proposers 5 = true ∧ removeMember opened.round.proposers 5 = 0
    ∧ removeMember (insertMember opened.round.proposers 6) 5 ≠ 0
    ∧ (after (.receiveWithdraw 5 7) opened).round.state = .idle
    ∧ (after (.receiveWithdraw 6 7) (opened.setPeer 6 peerFive)).round.state = .opened := by decide

theorem test_latch : { node with shutdownLatch := true, pending := [.resetLineAsserted] }.pending.head? ≠ some .powerOn
    ∧ (after .resetLineAsserted { node with shutdownLatch := true }).shutdownLatch = true := by decide

theorem test_committed_stays : (after .roundDeadlineExpires committed).round = committed.round
    ∧ exec .graceDeadlineExpires committed = .next (after .graceDeadlineExpires committed) := ⟨by decide, rfl⟩

/-! ## Link and queue -/

/-- The node with its receiver in WAIT at the end of an end mark. -/
def resting : State := { node with link := { node.link with receiver := .wait, afterEndMark := true } }

theorem test_idle_gap : (after (.idleGapElapsed 11) resting).link.receiver = .idle
    ∧ (after (.idleGapElapsed 10) resting).link.receiver = .wait
    ∧ (after (.idleGapElapsed 15) { resting with link := { resting.link with afterEndMark := false } }).link.receiver
      = .wait
    ∧ (after (.idleGapElapsed 16) { resting with link := { resting.link with afterEndMark := false } }).link.receiver
      = .idle := by decide

theorem test_start_mark : node.link.receiver = .idle ∧ (after .startMarkReceived node).link.receiver = .receiving := by decide

theorem test_faulted_ends :
    (after .faultedFrameReceptionEnds { hearing with link := { hearing.link with ownOnWire := true } }).link.receiver
      = .wait
    ∧ after .faultedFrameReceptionEnds hearing = hearing
    ∧ hearing.link.inFlight = none := by decide

/-- The node with a STATUS and a VOTE pending. -/
def ready : State := { node with queue := [.status (), .vote 3 .concur, .leave] }

theorem test_begin : ready.link.inFlight = none ∧ headEntry ready.queue = some (.vote 3 .concur)
    ∧ (after (.beginTransmission [false]) ready).link.inFlight = some (.vote 3 .concur)
    ∧ (after (.beginTransmission [false]) ready).queue = [.status (), .leave]
    ∧ (after (.beginTransmission [false]) ready).link.receiver = .receiving
    ∧ (after (.beginTransmission [true]) ready).link.receiver = .idle := by decide

/-- The snapshot a STATUS takes as it begins, in an IDLE and in an open round (R51, R112). -/
theorem test_snapshot : (after (.beginTransmission []) { node with queue := [.status ()] }).link.inFlight
      = some (.status { statusOf .idle 0 none 0 120 with signature := 226 })
    ∧ opened.statusSnapshot = statusOf .opened 7 (some .refuse) 32 120
    ∧ (node.peer node.own).signature = some 226 := by decide

/-- The node sending a frame, these bit periods of it read back as sent, and then `more`. -/
def sending (f : Frame) (faults : Nat) (read : Nat) (more : List Bool) : State :=
  { node with
    link := { node.link with
      receiver := .receiving, ownOnWire := true, inFlight := some f, faults := faults
      levels := (wireBits (encodeRaw 4 f)).take read ++ more } }

/-- The keys of a LEAVE, 110 0100, and of a VOTE, 010 0100, behind the start mark (R110, R130). -/
theorem test_key_periods : (wireBits (encodeRaw 4 .leave)).take 8 = [false, true, true, false, false, true, false, false]
    ∧ (wireBits (encodeRaw 4 (.vote 3 .concur))).take 8 = [false, false, true, false, false, true, false, false]
    ∧ keyPeriods (encodeRaw 4 .leave) = 7 := by decide +kernel

/-- A stuff bit between the bits of the key of a COMMIT from station 2: it lies within the key (R126, R130; log 29). -/
theorem test_key_stuffed : keyPeriods (encodeRaw 2 (.commit 1 4)) = 8
    ∧ (wireBits (encodeRaw 2 (.commit 1 4))).take 9
      = [false, false, false, false, false, false, true, true, false] := by decide +kernel

/-- A recessive key bit read dominant loses arbitration, at the first bit of the key and at the last recessive one (R130,
R131). -/
theorem test_arbitration : (sending .leave 0 1 [false]).readsBack .leave [] = .lost
    ∧ (after .arbitrationLost (sending .leave 0 1 [false])).queue = [.leave]
    ∧ (after .arbitrationLost (sending .leave 0 5 [false])).link.inFlight = none
    ∧ (after .arbitrationLost (sending .leave 0 5 [false])).link.ownOnWire = false
    ∧ (after .arbitrationLost (sending (.vote 3 .concur) 0 2 [false])).queue = [] := by decide +kernel

/-- No loss where the bits read are those sent, and none past the key (R130, R132). -/
theorem test_arbitration_not_lost :
    after .arbitrationLost (sending .leave 0 8 []) = sending .leave 0 8 []
    ∧ (wireBits (encodeRaw 4 .leave)).drop 8 = true :: (wireBits (encodeRaw 4 .leave)).drop 9
    ∧ after .arbitrationLost (sending .leave 0 8 [false]) = sending .leave 0 8 [false]
    ∧ (sending .leave 0 8 [false]).readsBack .leave [] = .faulted := by decide +kernel

/-- Faults: a start mark not carried, a dominant key bit read recessive, and any difference after the key (R132, R133). -/
theorem test_fault_places : (sending .leave 0 0 [true]).readsBack .leave [] = .faulted
    ∧ (sending .leave 0 3 [true]).readsBack .leave [] = .faulted
    ∧ (sending .leave 0 8 []).readsBack .leave [false] = .faulted
    ∧ (sending .leave 0 8 []).readsBack .leave [] = .driving
    ∧ (sending .leave 0 99 []).readsBack .leave [] = .completed := by decide +kernel

theorem test_fault_seven : (sending .leave 6 8 []).link.faults + 1 < 8
    ∧ (after (.transmitFault [false]) (sending .leave 6 8 [])).link.faults = 7
    ∧ (after (.transmitFault [false]) (sending .leave 6 8 [])).queue = [.leave]
    ∧ (after (.transmitFault [false]) (sending .leave 6 8 [])).link.ownOnWire = true
    ∧ after (.transmitFault [true]) (sending .leave 6 8 []) = sending .leave 6 8 [] := by decide +kernel

/-- A fault within the key leaves a frame that is not delivered, whoever drives on (R133). -/
theorem test_fault_in_key : after (.receiveVote 4 3 .concur) (after (.transmitFault []) (sending .leave 6 3 [true]))
      = (after (.transmitFault []) (sending .leave 6 3 [true])).toWait true
    ∧ (after .faultedFrameReceptionEnds (after (.transmitFault []) (sending .leave 6 3 [true]))).link.receiver = .wait := by
  decide +kernel

/-- A RECEIVE_ command while the own frame is in flight is the node's own transmission (R139; log 11). -/
theorem test_own_not_heard : after (.receiveVote 4 3 .concur) (sending .leave 0 8 [])
    = (sending .leave 0 8 []).toWait true := by decide +kernel

/-- An abandoned frame is still not delivered (R136, R139). -/
theorem test_abandoned : ((sending .leave 0 8 []).leaveFor .conflict).link.ownOnWire = true
    ∧ ((sending .leave 0 8 []).leaveFor .conflict).link.inFlight = none := by decide +kernel

theorem test_fault_eight : (sending .leave 7 8 []).link.faults + 1 = 8
    ∧ (sending (.withdraw 3) 7 0 []).readsBack (.withdraw 3) [true] = .faulted
    ∧ (after (.transmitFault [false]) (sending .leave 7 8 [])).life.nodeState = .quiet
    ∧ (after (.transmitFault [true]) (sending (.withdraw 3) 7 0 [])).life.nodeState = .linkOff
    ∧ (after (.transmitFault [true]) (sending (.withdraw 3) 7 0 [])).life.recoveryDeadline = some 14000 := by
  decide +kernel

/-- Whether a returned round frame is current (R50). -/
theorem test_current : cooling.isCurrent (.propose 7 0 190) = true ∧ cooling.isCurrent (.vote 7 .concur) = true
    ∧ cooling.isCurrent (.withdraw 7) = false ∧ opened.isCurrent (.withdraw 7) = true
    ∧ node.isCurrent (.withdraw 0) = true ∧ node.isCurrent (.vote 0 .concur) = false
    ∧ node.isCurrent (.commit 1 3) = true := by decide

/-- A frame completes once its key has been won; one that is lost, faulted or not yet won does not (R130, R134). -/
theorem test_completes : (sending (.withdraw 3) 5 8 []).readsTrue (.withdraw 3) = true
    ∧ (after .frameCompletes (sending (.withdraw 3) 5 8 [])).link.faults = 0
    ∧ (after .frameCompletes (sending .leave 5 99 [])).life.nodeState = .quiet
    ∧ after .frameCompletes (sending .leave 5 7 []) = sending .leave 5 7 []
    ∧ after .frameCompletes (sending .leave 5 8 [false]) = sending .leave 5 8 [false] := by decide +kernel

/-- The JOIN of a JOINING node; what follows its completion depends on no free choice here. -/
def joining : State := { node.as .joining with link := (sending (.join 226 120) 0 99 []).link, eligible := 1 }

theorem test_join_completes : joining.link.inFlight = some (.join 226 120) ∧ joining.life.nodeState = .joining
    ∧ joining.round.state = .idle ∧ joining.readsTrue (.join 226 120) = true := by decide +kernel

theorem test_join_either_order :
    (joining.clearFlight.enterActiveIn true).life.statusDeadline = some 11000
    ∧ joining.clearFlight.enterActiveIn true = joining.clearFlight.enterActiveIn false := by decide +kernel

/-- The JOIN of a node whose record is OPEN: it votes, or co-proposes where it is critical, behind the STATUS of the entry, in
either order (R53). -/
def rejoining : State := { joining with round := opened.round }

theorem test_join_open : rejoining.round.state = .opened ∧ rejoining.round.ownVerdict.isSome = true
    ∧ (∀ b, (rejoining.clearFlight.enterActiveIn b).queue = [.status (), .vote 7 .refuse])
    ∧ (∀ b, ({ rejoining with channels := critical.channels }.clearFlight.enterActiveIn b).queue
      = [.status (), .propose 7 0 190]) := by decide +kernel

/-- The JOIN of a critical node whose record is IDLE, and of a committed one (R53). -/
theorem test_join_idle : ({ joining with channels := critical.channels }.clearFlight.enterActiveIn true).queue
      = [.status (), .propose 1 0 190]
    ∧ ({ joining with round := committed.round }.clearFlight.enterActiveIn false).queue = [.status ()] := by decide +kernel

/-- One record a slot, in the place its slot was first taken (R113). -/
theorem test_slots :
    placeRecords [] [{ channel := 1, event := .rise, needsAck := false, reading := 5 },
        { channel := 1, event := .fault, needsAck := false, reading := 0 },
        { channel := 1, event := .fall, needsAck := true, reading := 4 }]
      = [{ channel := 1, event := .fall, needsAck := true, reading := 4 },
        { channel := 1, event := .fault, needsAck := false, reading := 0 }] := by decide

/-- Offered and dropped, replaced, and left as it is (R143, R144). -/
theorem test_offers : (node.as .listening).offer .leave = node.as .listening
    ∧ (node.as .joining).offer (.join 1 2) = { node.as .joining with queue := [.join 1 2] }
    ∧ (ready.offer (.vote 4 .refuse)).queue = [.status (), .leave, .vote 4 .refuse]
    ∧ (ready.offer (.status ())).queue = ready.queue := by decide

/-- A kind that is not pending becomes the youngest entry (R142, R144). -/
theorem test_offers_youngest : (ready.offer (.commit 1 2)).queue = ready.queue ++ [.commit 1 2]
    ∧ (ready.offer (.ack [{ station := 2, channels := 1 }])).queue = ready.queue ++ [.ack [{ station := 2, channels := 1 }]]
    ∧ (ready.offer (.alarm [{ channel := 1, event := .rise, needsAck := false, reading := 5 }])).queue
      = ready.queue ++ [.alarm [{ channel := 1, event := .rise, needsAck := false, reading := 5 }]] := by decide

/-- One pair a station, united in its place (R114). -/
theorem test_pairs : mergePairs [] [{ station := 2, channels := 1 }, { station := 3, channels := 1 },
      { station := 2, channels := 4 }] = [{ station := 2, channels := 5 }, { station := 3, channels := 1 }] := by decide

theorem test_offers_lists : (({ node with queue := [.ack [{ station := 2, channels := 1 }]] }).offer
      (.ack [{ station := 2, channels := 4 }])).queue = [.ack [{ station := 2, channels := 5 }]] := by decide

/-- Returned, merged and discarded (R147 to R149). -/
theorem test_returns : returned [] (.vote 3 .concur) false = [] ∧ returned [] (.vote 3 .concur) true = [.vote 3 .concur]
    ∧ returned [.leave] .leave true = [.leave]
    ∧ returned [.ack [{ station := 2, channels := 4 }]] (.ack [{ station := 2, channels := 1 }]) true
      = [.ack [{ station := 2, channels := 5 }]] := by decide

/-! ## Life cycle -/

/-- The node LISTENING at its listen deadline. -/
def listening : State :=
  { node with eligible := 1, life := { LifeCycle.reset with nodeState := .listening, listenDeadline := some 10000 } }

theorem test_listen : listening.life.nodeState = .listening ∧ Due listening.life.listenDeadline listening.now :=
  ⟨rfl, 10000, rfl, by decide⟩

theorem test_listen_effect : (after .listenDeadlineExpires listening).life.nodeState = .joining
    ∧ (after .listenDeadlineExpires listening).queue = [.join 226 120] := by decide

/-- The node in LINK_OFF at its recovery deadline. -/
def recovering : State :=
  { node with
    link := { node.link with faults := 8 }
    life := { LifeCycle.reset with nodeState := .linkOff, recoveryDeadline := some 10000 } }

theorem test_recovery : recovering.life.nodeState = .linkOff ∧ Due recovering.life.recoveryDeadline recovering.now :=
  ⟨rfl, 10000, rfl, by decide⟩

theorem test_recovery_effect : (after .recoveryDeadlineExpires recovering).life.listenDeadline = some 16000
    ∧ (after .recoveryDeadlineExpires recovering).link.faults = 0 := by decide

theorem test_status : node.life.nodeState = .active ∧ Due node.life.statusDeadline { node with now := 11000 }.now :=
  ⟨rfl, 11000, rfl, by decide⟩

theorem test_status_effect : (after .statusDeadlineExpires { node with now := 11000 }).queue = [.status ()]
    ∧ (after .statusDeadlineExpires { node with now := 11000 }).life.statusDeadline = some 12000 := by decide

/-! ## Diagnostic port -/

theorem test_answers : node.Answers := rfl

/-- NODE in LOADING, item by item (R180; log 14). -/
theorem test_node_loading : (after .node State.reset).port
    = some (.response [0, 17, 0, 0, 0, 0, 0xFF, 0xFF, 0xFF, 0xFF, 0xFF, 0xFF, 0, 0, 0, 0, 0, 0, 0] 0) := by decide

/-- FAN A (R184). -/
theorem test_fan : (after (.fan 0) node).port
    = some (.response [0, 13, 0, 120, 120, 2, 4, 0xFF, 0xFF, 1, 0xF4, 0, 0, 1, 0] 0) := by decide

theorem test_round_answer : ((after .round node).port).isSome = true ∧ (after (.peer 15) node).port ≠ none
    ∧ (after (.channel 7) node).port ≠ none ∧ (after (.fan 1) node).port ≠ none := by decide

theorem test_out_of_range : (after (.peer 16) node).port = some (.response [3, 0] 0)
    ∧ (after (.channel 8) node).port = some (.response [3, 0] 0)
    ∧ (after (.fan 2) node).port = some (.response [3, 0] 0)
    ∧ (after (.ackLocal 0) node).port = some (.response [3, 0] 0)
    ∧ (after (.ackRemote 16 1) node).port = some (.response [3, 0] 0)
    ∧ (after (.ackRemote 3 0) node).port = some (.response [3, 0] 0) := by decide

theorem test_not_ready : State.reset.running = false ∧ (after .leave State.reset).port = some (.response [2, 0] 0)
    ∧ (after (.peer 16) State.reset).port = some (.response [2, 0] 0)
    ∧ (after (.unknownCommand 0) State.reset).port = some (.response [3, 0] 0)
    ∧ (after (.unknownCommand 9) node).port = some (.response [3, 0] 0) := by decide

/-- The node with four stations in its pending ACK. -/
def full : State :=
  { node with queue := [.ack [{ station := 0, channels := 1 }, { station := 1, channels := 1 },
    { station := 2, channels := 1 }, { station := 3, channels := 1 }]] }

theorem test_ackRemote : full.ackStationCount = 4 ∧ member full.ackStations 5 = false ∧ member full.ackStations 3 = true
    ∧ (5 : Station) ≠ full.own ∧ (after (.ackRemote 5 1) full).port = some (.response [1, 0] 0)
    ∧ (after (.ackRemote 3 2) full).port = some (.response [0, 0] 0)
    ∧ (after (.ackRemote 5 1) node).queue = [.ack [{ station := 5, channels := 1 }]] := by decide

theorem test_ackRemote_own : (4 : Station) = node.own
    ∧ (after (.ackRemote 4 16) waiting) = (after (.ackLocal 16) waiting)
    ∧ (after (.ackRemote 5 1) (node.as .quiet)).port = some (.response [2, 0] 0) := by decide

theorem test_leave_command : (after .leave opened).port = some (.response [4, 0] 0)
    ∧ (after .leave (node.as .quiet)).port = some (.response [2, 0] 0)
    ∧ (after .leave node).queue = [.leave] ∧ (after .leave node).life.leavePending = true := by decide

/-- A round that opens takes back a pending LEAVE (R167). -/
theorem test_leave_taken_back : (after (.receivePropose 5 1 0 186)
      { after .leave node with link := hearing.link }).life.leavePending = false := by decide

/-- The port byte by byte: code and argument make a request (R178; log 15). -/
theorem test_port_bytes : requestCommand [3] = none ∧ requestCommand [3, 7] = some (.peer 7)
    ∧ requestCommand [9] = some (.unknownCommand 9) ∧ requestCommand [7, 1, 2] = some (.ackRemote 1 2) := by decide

/-! ## The invariants hold of the node -/

theorem test_frame_valid : validFrame (.alarm [{ channel := 0, event := .fault, needsAck := true, reading := 0 }]) = true
    ∧ (encodeRaw 3 (.commit 7 5)).payload.length ≤ 63 := by decide

theorem test_node_rests : RestsUntilLoaded node ∧ HeldByResetLine node ∧ LoaderInStep node ∧ HaltedHoldsLatch node := by
  refine ⟨fun h => by revert h; decide, fun h => by revert h; decide, ?_, fun h => by revert h; decide⟩
  unfold LoaderInStep
  decide

theorem test_node_configured : ConfiguredWhileRunning node := fun _ => ⟨sample, rfl, by decide⟩

theorem test_node_peers : EligibleCounted node ∧ OwnEntryMirrors node ∧ PeersAge node := by
  unfold EligibleCounted OwnEntryMirrors PeersAge
  decide

theorem test_node_round : RoundInStep node := by
  unfold RoundInStep
  decide

theorem test_node_watches : WatchesInStep node := fun _ => by
  unfold WatchInStep
  decide

theorem test_node_sensors : SensorsSummed node ∧ SampleDeadlinesArmed node := by
  unfold SensorsSummed SampleDeadlinesArmed
  decide

theorem test_node_fan_a : (node.fan .a).target = node.targetNow .a ∧ (node.fan .a).reason = node.reasonNow .a
    ∧ (node.fan .a).Follows node.cfg.stallFloor ∧ (node.fan .a).windowDeadline.isSome = node.running
    ∧ (node.fan .a).CountsInStep := by
  unfold FanRecord.Follows FanRecord.CountsInStep
  decide

theorem test_node_fan_b : (node.fan .b).target = node.targetNow .b ∧ (node.fan .b).reason = node.reasonNow .b
    ∧ (node.fan .b).Follows node.cfg.stallFloor ∧ (node.fan .b).windowDeadline.isSome = node.running
    ∧ (node.fan .b).CountsInStep := by
  unfold FanRecord.Follows FanRecord.CountsInStep
  decide

theorem test_node_fans : TargetsCurrent node ∧ DutiesFollow node ∧ FansSupervised node := by
  obtain ⟨ta, ra, fa, wa, ca⟩ := test_node_fan_a
  obtain ⟨tb, rb, fb, wb, cb⟩ := test_node_fan_b
  exact ⟨fun | .a => ⟨ta, ra⟩ | .b => ⟨tb, rb⟩, fun | .a => fa | .b => fb, fun | .a => ⟨wa, ca⟩ | .b => ⟨wb, cb⟩⟩

theorem test_node_link : QueueInStep node ∧ FaultsBounded node ∧ LeaveFlagTrue node ∧ LifeDeadlinesInStep node := by
  unfold QueueInStep FaultsBounded LeaveFlagTrue LifeDeadlinesInStep
  decide

/-- The running node meets every invariant, and a command waiting in front is stepped. -/
theorem test_invariants : NodeInv node where
  rests := test_node_rests.1
  held := test_node_rests.2.1
  configured := test_node_configured
  loader := test_node_rests.2.2.1
  eligible := test_node_peers.1
  own := test_node_peers.2.1
  ageing := test_node_peers.2.2
  round := test_node_round
  latch := test_node_rests.2.2.2
  watches := test_node_watches
  summed := test_node_sensors.1
  samples := test_node_sensors.2
  targets := test_node_fans.1
  duties := test_node_fans.2.1
  supervised := test_node_fans.2.2
  queue := test_node_link.1
  faults := test_node_link.2.1
  own_frame := nofun
  life := test_node_link.2.2.2
  leave := test_node_link.2.2.1

theorem test_invariants_step : step node = .next node.tick := rfl

end Sys2Proof.Tests
end

/-! What the Peer Table's effective demand reads of the state, row by row of the table of R19, and what the two resets
leave of the entries it reads (R1, R21). -/
namespace Sys2Proof.Machine

/-! ### The table of R19, one row each -/

section
variable {s : State} {a : Station}

theorem State.effectiveDemand_of_isOwn (ho : s.isOwn a = true) : s.effectiveDemand a = (s.peer a).demand := by
  simp [State.effectiveDemand, ho]

theorem State.effectiveDemand_of_present (ho : s.isOwn a = false) (hp : (s.peer a).presence = .present) :
    s.effectiveDemand a = if (s.peer a).fanAFailed || (s.peer a).fanBFailed then 255 else (s.peer a).demand := by
  simp [State.effectiveDemand, ho, hp]

theorem State.effectiveDemand_of_silent (ho : s.isOwn a = false) (hp : (s.peer a).presence = .silent) :
    s.effectiveDemand a = 255 := by
  simp [State.effectiveDemand, ho, hp]

theorem State.effectiveDemand_of_gone (ho : s.isOwn a = false)
    (hp : (s.peer a).presence = .absent ∨ (s.peer a).presence = .departed) : s.effectiveDemand a = 0 := by
  obtain hp | hp := hp <;> simp [State.effectiveDemand, ho, hp]

/-- An entry at its reset values makes no demand, the own entry's as little as any other's. -/
theorem State.effectiveDemand_of_reset (h : s.peer a = PeerEntry.reset) : s.effectiveDemand a = 0 := by
  cases ho : s.isOwn a with
  | true => simp [State.effectiveDemand_of_isOwn ho, h, PeerEntry.reset]
  | false => exact State.effectiveDemand_of_gone ho (.inl (by simp [h, PeerEntry.reset]))

end

/-! ### What it does not read -/

@[simp] theorem State.setPeer_isOwn (s : State) (a : Station) (e : PeerEntry) (b : Station) :
    (s.setPeer a e).isOwn b = s.isOwn b := rfl

/-- A new entry that agrees with the old one in presence, demand and fan flags keeps the station's effective demand. -/
theorem State.effectiveDemand_setPeer_of_agrees (s : State) (a : Station) (e : PeerEntry)
    (hp : e.presence = (s.peer a).presence) (hd : e.demand = (s.peer a).demand)
    (hA : e.fanAFailed = (s.peer a).fanAFailed) (hB : e.fanBFailed = (s.peer a).fanBFailed) :
    (s.setPeer a e).effectiveDemand a = s.effectiveDemand a := by
  simp [State.effectiveDemand, hp, hd, hA, hB]

/-! ### The entries after a reset -/

@[simp] theorem State.reset_peer (a : Station) : State.reset.peer a = PeerEntry.reset := by
  simp [State.peer, State.reset]

@[simp] theorem State.allReset_peer (latch line : Bool) (s : State) (a : Station) :
    (s.allReset latch line).peer a = PeerEntry.reset :=
  State.reset_peer a

@[simp] theorem State.enterLoading_peer (s : State) (a : Station) : s.enterLoading.peer a = s.peer a := by
  unfold State.enterLoading; split <;> rfl

theorem execPowerOn_peer {s t : State} (h : exec .powerOn s = .next t) (a : Station) : t.peer a = PeerEntry.reset := by
  obtain rfl : (s.allReset false s.resetLine).enterLoading = t := Host.Outcome.next.inj h
  simp

theorem execResetLineAsserted_peer {s t : State} (h : exec .resetLineAsserted s = .next t) (a : Station) :
    t.peer a = PeerEntry.reset := by
  obtain rfl : s.allReset s.shutdownLatch true = t := Host.Outcome.next.inj h
  simp

/-- Settles O26: a lemma for each row of the table of R19, then the agreement of the old and the new entry in all that
the table reads, then the reset entries. -/
theorem effectiveDemandByPresence : Obligations.EffectiveDemandByPresence := by
  intro s a
  refine ⟨State.effectiveDemand_of_isOwn, ?healthy, ?fanFailed, State.effectiveDemand_of_silent,
    State.effectiveDemand_of_gone, ?signature, State.effectiveDemand_of_reset (State.reset_peer a), ?resets⟩
  case healthy =>
    intro ho hp hA hB
    simp [State.effectiveDemand_of_present ho hp, hA, hB]
  case fanFailed =>
    intro ho hp hf
    simp [State.effectiveDemand_of_present ho hp, hf]
  case signature =>
    intro g v
    exact s.effectiveDemand_setPeer_of_agrees a _ rfl rfl rfl rfl
  case resets =>
    rintro t (h | h)
    · exact State.effectiveDemand_of_reset (execPowerOn_peer h a)
    · exact State.effectiveDemand_of_reset (execResetLineAsserted_peer h a)

end Sys2Proof.Machine

/-! # Sensor channels and watch records (03): what a sample does to a watch record -/

namespace Sys2Proof.Machine

/-! ### The sensor event test (R62) -/

section
variable {w : WatchRecord} {p : Sample}

@[simp] theorem sensorEvent_fault : sensorEvent .fault w = if w.faulted then none else some .fault := rfl

theorem sensorEvent_of_ne_fault (hp : p ≠ .fault) : sensorEvent p w = if w.faulted then some .restore else none := by
  cases p with
  | fault => exact absurd rfl hp
  | valid x => rfl

@[simp] theorem WatchRecord.sense_reading : (w.sense p).reading = p.asReading := rfl

@[simp] theorem WatchRecord.sense_faulted : (w.sense p).faulted = (p == .fault) := rfl

theorem WatchRecord.sense_eq :
    w.sense p = { w with reading := (w.sense p).reading, faulted := (w.sense p).faulted } := rfl

@[simp] theorem Sample.asReading_eq_fault_iff : p.asReading = .fault ↔ p = .fault := by
  cases p <;> simp [Sample.asReading]

/-- R61's order of reports: a sensor event's record is the first of the sample's records. -/
theorem sampleRecords_of_sensorEvent {e : AlarmEvent} (c : Channel) (k : ChannelConfig) (h : sensorEvent p w = some e) :
    ∃ rest, sampleRecords c k p w = alarmRecord c k e (w.sense p) :: rest := by
  simp only [sampleRecords, h, Option.toList_some, List.map_cons, List.map_nil, List.singleton_append]
  exact ⟨_, rfl⟩

end

/-- Settles O12: the event and the flag by the kind of sample and the flag before it, then the place of the sensor
event's record. -/
theorem sensorEventsFollowTheFaultedFlag : Obligations.SensorEventsFollowTheFaultedFlag := by
  intro k w p c
  refine ⟨?begins, ?ends, ?lasts, ?stays, WatchRecord.sense_eq, ?first, ?reading⟩
  case begins =>
    rintro rfl hf
    simp [hf]
  case lasts =>
    rintro rfl hf
    simp [hf]
  case ends =>
    intro hp hf
    simp [sensorEvent_of_ne_fault hp, hp, hf]
  case stays =>
    intro hp hf
    simp [sensorEvent_of_ne_fault hp, hp, hf]
  case first =>
    intro e he
    obtain ⟨rest, hr⟩ := sampleRecords_of_sensorEvent c k he
    exact ⟨_, rest, hr, rfl, rfl⟩
  case reading => simp

/-! ### The condition machine (R63 to R65) -/

section
variable {k : ChannelConfig} {w : WatchRecord} {p : Sample}

@[simp] theorem beyondHigh_fault : beyondHigh k .fault = true := rfl

@[simp] theorem backWithin_fault : backWithin k .fault = false := rfl

@[simp] theorem beyondHigh_valid_iff {x : HalfDegrees} : beyondHigh k (.valid x) = true ↔ k.highLimit ≤ x :=
  decide_eq_true_iff

@[simp] theorem backWithin_valid_iff {x : HalfDegrees} :
    backWithin k (.valid x) = true ↔ x ≤ k.highLimit - k.hysteresis :=
  decide_eq_true_iff

theorem WatchRecord.conditionStep_of_normal (hn : w.condition = .normal) :
    w.conditionStep k p =
      if beyondHigh k p then
        if k.persistence ≤ w.riseCount + 1 then { w with condition := .raised, riseCount := 0 }
        else { w with riseCount := w.riseCount + 1 }
      else { w with riseCount := 0 } := by
  simp only [WatchRecord.conditionStep, hn]

theorem WatchRecord.conditionStep_of_raised (hr : w.condition = .raised) :
    w.conditionStep k p =
      if backWithin k p then
        if k.persistence ≤ w.fallCount + 1 then { w with condition := .normal, fallCount := 0 }
        else { w with fallCount := w.fallCount + 1 }
      else { w with fallCount := 0 } := by
  simp only [WatchRecord.conditionStep, hr]

theorem conditionEvent_of_normal (hn : w.condition = .normal) :
    conditionEvent k p w = if beyondHigh k p ∧ k.persistence ≤ w.riseCount + 1 then some .rise else none := by
  simp only [conditionEvent, hn]

theorem conditionEvent_of_raised (hr : w.condition = .raised) :
    conditionEvent k p w = if backWithin k p ∧ k.persistence ≤ w.fallCount + 1 then some .fall else none := by
  simp only [conditionEvent, hr]

end

/-- Settles O13: the machine's equations in NORMAL and in RAISED, taken apart by the class of the sample and by whether
this sample brings the count to N. -/
theorem conditionChangesAfterNSamplesInARow : Obligations.ConditionChangesAfterNSamplesInARow := by
  constructor
  · intro k w p hn
    rw [WatchRecord.conditionStep_of_normal hn, conditionEvent_of_normal hn]
    refine ⟨?counts, ?rises, ?restarts⟩
    case counts =>
      intro hb hlt
      simp [hb, Nat.not_le.mpr hlt]
    case rises =>
      intro hb heq
      simp [hb, heq]
    case restarts =>
      intro hb
      simp [hb]
  · intro k w p hr
    rw [WatchRecord.conditionStep_of_raised hr, conditionEvent_of_raised hr]
    refine ⟨?counts, ?falls, ?restarts, beyondHigh_fault, backWithin_fault,
      fun x => beyondHigh_valid_iff, fun x => backWithin_valid_iff⟩
    case counts =>
      intro hb hlt
      simp [hb, Nat.not_le.mpr hlt]
    case falls =>
      intro hb heq
      simp [hb, heq]
    case restarts =>
      intro hb
      simp [hb]

end Sys2Proof.Machine

/-! # Critical limits and the node verdict (04): the critical machine (R78 to R81) -/

namespace Sys2Proof.Machine

section
variable {k : ChannelConfig} {w : WatchRecord} {x : HalfDegrees}

/-- A fault sample leaves the critical machine alone, on every channel (R81). -/
@[simp] theorem WatchRecord.criticalStep_fault : w.criticalStep k .fault = w := by
  unfold WatchRecord.criticalStep
  exact ite_self w

theorem WatchRecord.criticalStep_of_calm (he : k.enabled = true) (hk : k.criticalEnabled = true)
    (hc : w.criticalState = .calm) :
    w.criticalStep k (.valid x) =
      if k.criticalHigh ≤ x then
        if k.persistence ≤ w.criticalCount + 1 then { w with criticalState := .critical, criticalCount := 0 }
        else { w with criticalCount := w.criticalCount + 1 }
      else { w with criticalCount := 0 } := by
  simp [WatchRecord.criticalStep, he, hk, hc]

theorem WatchRecord.criticalStep_of_critical (he : k.enabled = true) (hk : k.criticalEnabled = true)
    (hc : w.criticalState = .critical) :
    w.criticalStep k (.valid x) =
      if x ≤ k.criticalRelease then
        if k.persistence ≤ w.criticalCount + 1 then { w with criticalState := .calm, criticalCount := 0 }
        else { w with criticalCount := w.criticalCount + 1 }
      else { w with criticalCount := 0 } := by
  simp [WatchRecord.criticalStep, he, hk, hc]

end

/-- Settles O15: the machine's equations in CALM and in CRITICAL, taken apart by the side of the limit the reading lies
on and by whether this sample brings the count to N. -/
theorem criticalTakesNValidSamples : Obligations.CriticalTakesNValidSamples := by
  intro k w x he hk
  refine ⟨?calm, ?critical, WatchRecord.criticalStep_fault⟩
  case calm =>
    intro hc
    rw [WatchRecord.criticalStep_of_calm he hk hc]
    refine ⟨?counts, ?begins, ?restarts⟩
    case counts =>
      intro hx hlt
      rw [if_pos hx, if_neg (Nat.not_le.mpr hlt)]
    case begins =>
      intro hx heq
      rw [if_pos hx, if_pos heq.ge]
    case restarts =>
      intro hx
      rw [if_neg (Int.not_le.mpr hx)]
  case critical =>
    intro hc
    rw [WatchRecord.criticalStep_of_critical he hk hc]
    refine ⟨?counts, ?ends, ?restarts⟩
    case counts =>
      intro hx hlt
      rw [if_pos hx, if_neg (Nat.not_le.mpr hlt)]
    case ends =>
      intro hx heq
      rw [if_pos hx, if_pos heq.ge]
    case restarts =>
      intro hx
      rw [if_neg (Int.not_le.mpr hx)]

end Sys2Proof.Machine

/-! # Airflow demand and fan drive (05): how the duty follows a target, the unforced target, and the closed window -/

namespace Sys2Proof.Machine

/-! ### The duty follows its target (R95) -/

section
variable {now : Millis} {floor : Nat} {t : Byte} {r : FanRecord}

theorem FanRecord.follow_of_duty_lt (h : r.duty.toNat < t.toNat) :
    r.follow now floor t = { r.withDuty floor t with target := t, fallDeadline := none } :=
  if_pos h

theorem FanRecord.follow_of_eq_duty (h : t = r.duty) :
    r.follow now floor t = { r with target := t, fallDeadline := none } := by
  have hge : ¬ r.duty.toNat < t.toNat := h ▸ Nat.lt_irrefl _
  rw [FanRecord.follow, if_neg hge, if_pos h]

theorem FanRecord.follow_of_lt_duty (h : t.toNat < r.duty.toNat) :
    r.follow now floor t =
      { r with target := t, fallDeadline := some (r.fallDeadline.getD (now + Config.fallInterval)) } := by
  have hne : t ≠ r.duty := fun he => Nat.ne_of_lt h (congrArg BitVec.toNat he)
  rw [FanRecord.follow, if_neg (Nat.lt_asymm h), if_neg hne]

/-- A duty that already follows its target has nothing to do when the same target comes again. -/
theorem FanRecord.Follows.follow_same_target (h : r.Follows floor) : r.follow now floor r.target = r := by
  obtain ⟨hle, hfall, -⟩ := h
  obtain hlt | heq := Nat.lt_or_eq_of_le hle
  · obtain ⟨d, hd⟩ := Option.isSome_iff_exists.mp (hfall.mpr hlt)
    rw [FanRecord.follow_of_lt_duty hlt, hd, Option.getD_some, ← hd]
  · have hd : r.fallDeadline = none := by
      rw [← Option.not_isSome_iff_eq_none, hfall]
      exact Nat.not_lt_of_ge heq.ge
    rw [FanRecord.follow_of_eq_duty (BitVec.eq_of_toNat_eq heq), ← hd]

/-- How the duty follows a target does not depend on the recorded reason. -/
theorem FanRecord.follow_with_reason (e : TargetReason) :
    { r with reason := e }.follow now floor t = { r.follow now floor t with reason := e } := by
  unfold FanRecord.follow
  dsimp only
  split
  case isTrue => rfl
  case isFalse => split <;> rfl

/-- R93 asks whether the target changes before the duty follows it; where the duty follows already, this makes no
difference. -/
theorem State.retarget_eq_follow {s : State} {f : FanId} (h : (s.fan f).Follows s.cfg.stallFloor) :
    s.retarget f =
      { (s.fan f).follow s.now s.cfg.stallFloor (s.targetNow f) with reason := s.reasonNow f } := by
  unfold State.retarget
  dsimp only
  split
  case isTrue hsame => rw [hsame, h.follow_same_target]
  case isFalse => rw [FanRecord.follow_with_reason]

end

/-- Settles O23: a recomputation is R95's following of the target, also where the target is the old one; then one case
for each order of target and duty. -/
theorem dutyFollowsARecomputedTarget : Obligations.DutyFollowsARecomputedTarget := by
  intro s f h
  rw [State.recomputeTargets_fan, State.retarget_eq_follow h]
  refine ⟨FanRecord.follow_target .., ?rises, ?meets, ?beginsFall, ?keepsFall⟩
  case rises =>
    intro hlt
    rw [FanRecord.follow_of_duty_lt hlt]
    exact ⟨rfl, rfl⟩
  case meets =>
    intro heq
    rw [FanRecord.follow_of_eq_duty heq]
    exact ⟨rfl, rfl⟩
  case beginsFall =>
    intro hlt hd
    rw [FanRecord.follow_of_lt_duty hlt]
    exact ⟨rfl, by rw [hd, Option.getD_none, Config.fallInterval]⟩
  case keepsFall =>
    intro d hlt hd
    rw [FanRecord.follow_of_lt_duty hlt]
    exact ⟨rfl, by rw [hd, Option.getD_some]⟩

/-! ### The unforced target (R92) -/

section
variable {s t : State} {f : FanId}

/-- The largest of the sixteen is within a bound exactly where each of them is. -/
theorem State.largestDemand_le_iff {n : Nat} : s.largestDemand f ≤ n ↔ ∀ a, s.weightedDemand f a ≤ n := by
  constructor
  · intro h a
    exact (s.weightedDemand_le f a).trans h
  · intro h
    obtain ⟨a, ha⟩ := s.largestDemand_eq f
    exact ha ▸ h a

theorem State.weightedDemand_congr {a : Station} (hc : t.fanCfg f = s.fanCfg f)
    (hd : t.effectiveDemand a = s.effectiveDemand a) : t.weightedDemand f a = s.weightedDemand f a := by
  rw [State.weightedDemand, State.weightedDemand, hc, hd]

theorem State.largestDemand_congr (h : ∀ a, t.weightedDemand f a = s.weightedDemand f a) :
    t.largestDemand f = s.largestDemand f := by
  simp only [State.largestDemand, h]

theorem State.unforcedTarget_congr (hc : t.fanCfg f = s.fanCfg f)
    (hd : ∀ a, t.effectiveDemand a = s.effectiveDemand a) : t.unforcedTarget f = s.unforcedTarget f := by
  have hl : t.largestDemand f = s.largestDemand f :=
    State.largestDemand_congr fun a => State.weightedDemand_congr hc (hd a)
  rw [State.unforcedTarget, State.unforcedTarget, hc, hl]

end

/-- Settles O24: the largest demand bounds the stations' demands and is one of them, so the maximum is the floor where
every demand is within it and the largest demand where one exceeds it. -/
theorem unforcedTargetIsTheLargerOfFloorAndDemand : Obligations.UnforcedTargetIsTheLargerOfFloorAndDemand := by
  intro s f
  have hmax := s.unforcedTarget_toNat f
  refine ⟨hmax, s.weightedDemand_le f, s.largestDemand_eq f, ?atFloor, ?aboveFloor,
    fun t => State.unforcedTarget_congr⟩
  case atFloor =>
    intro h
    apply BitVec.eq_of_toNat_eq
    rw [hmax, max_eq_left (State.largestDemand_le_iff.mpr h)]
  case aboveFloor =>
    intro a h
    have hlt : (s.fanCfg f).floor.toNat < s.largestDemand f := h.trans_le (s.weightedDemand_le f a)
    rw [hmax, max_eq_right hlt.le]

/-! ### The closed window (R101, R102) -/

section
variable {r : FanRecord}

theorem FanRecord.judgeWindow_of_not_qualifies (hq : r.windowQualifies = false) : r.judgeWindow = r := by
  simp [FanRecord.judgeWindow, hq]

theorem FanRecord.judgeWindow_of_ok (hc : r.condition = .ok) (hq : r.windowQualifies = true) :
    r.judgeWindow =
      if r.edgeSeen then { r with stallCount := 0 }
      else if r.stallCount + 1 < 3 then { r with stallCount := r.stallCount + 1 }
      else { r with condition := .failed, stallCount := 0 } := by
  simp only [FanRecord.judgeWindow, hq, hc, if_true, Config.persistence]

theorem FanRecord.judgeWindow_of_failed (hc : r.condition = .failed) (hq : r.windowQualifies = true) :
    r.judgeWindow =
      if r.edgeSeen then
        if r.goodCount + 1 < 3 then { r with goodCount := r.goodCount + 1 }
        else { r with condition := .ok, goodCount := 0 }
      else { r with goodCount := 0 } := by
  simp only [FanRecord.judgeWindow, hq, hc, if_true, Config.persistence]

end

/-- Settles O22: the judgement's equations in OK and in FAILED, taken apart by whether the window saw an edge and by
whether it brings the count to 3. -/
theorem threeQualifyingWindowsChangeTheFanState : Obligations.ThreeQualifyingWindowsChangeTheFanState := by
  intro r
  refine ⟨FanRecord.judgeWindow_of_not_qualifies, ?ok, ?failed, FanRecord.CountsInStep.judgeWindow⟩
  case ok =>
    intro hc hq
    rw [FanRecord.judgeWindow_of_ok hc hq]
    refine ⟨?edge, ?counts, ?fails⟩
    case edge =>
      intro he
      rw [if_pos he]
    case counts =>
      intro he hlt
      rw [if_neg (Bool.eq_false_iff.mp he), if_pos hlt]
    case fails =>
      intro he heq
      rw [if_neg (Bool.eq_false_iff.mp he), if_neg heq.not_lt]
  case failed =>
    intro hc hq
    rw [FanRecord.judgeWindow_of_failed hc hq]
    refine ⟨?counts, ?recovers, ?noEdge⟩
    case counts =>
      intro he hlt
      rw [if_pos he, if_pos hlt]
    case recovers =>
      intro he heq
      rw [if_pos he, if_neg heq.not_lt]
    case noEdge =>
      intro he
      rw [if_neg (Bool.eq_false_iff.mp he)]

end Sys2Proof.Machine

/-! # The round record stays in step (02): every operation of the Round Controller keeps `RoundInStep` -/

namespace Sys2Proof.Machine

/-! ### The record by itself -/

/-- `RoundInStep` as a property of the record: `own` says which address is the node's own. -/
def RoundRecord.InStep (own : Station → Bool) (r : RoundRecord) : Prop :=
  (r.roundDeadline.isSome = true ↔ r.state = .opened)
    ∧ (r.graceDeadline.isSome = true ↔ r.state = .committed)
    ∧ (r.proposers ≠ 0 ↔ r.state = .opened)
    ∧ (r.state = .opened → r.ownVerdict.isSome = true)
    ∧ (∀ a, own a = true → r.votes[a] = none)

theorem roundInStep_iff {s : State} : RoundInStep s ↔ s.round.InStep s.isOwn := Iff.rfl

theorem State.isOwn_of_image {s t : State} (hi : t.image = s.image) : t.isOwn = s.isOwn := by
  funext a
  simp only [State.isOwn, State.own, State.cfg, hi]

/-- `RoundInStep` reads the record and the configuration alone. -/
theorem RoundInStep.congr {s t : State} (h : RoundInStep s) (hr : t.round = s.round) (hi : t.image = s.image) :
    RoundInStep t := by
  rw [roundInStep_iff, hr, State.isOwn_of_image hi]
  exact h

theorem RoundInStep.of_record {s t : State} {r : RoundRecord} (h : r.InStep s.isOwn) (hr : t.round = r)
    (hi : t.image = s.image) : RoundInStep t := by
  rw [roundInStep_iff, hr, State.isOwn_of_image hi]
  exact h

section
variable {own : Station → Bool} {r : RoundRecord}

/-- An OPEN record in step, field by field. -/
theorem RoundRecord.inStep_opened (ho : r.state = .opened) :
    r.InStep own ↔ r.roundDeadline.isSome = true ∧ r.graceDeadline = none ∧ r.proposers ≠ 0
      ∧ r.ownVerdict.isSome = true ∧ ∀ a, own a = true → r.votes[a] = none := by
  simp [RoundRecord.InStep, ho]

/-- A COMMITTED record in step, field by field. -/
theorem RoundRecord.inStep_committed (hc : r.state = .committed) :
    r.InStep own ↔ r.roundDeadline = none ∧ r.graceDeadline.isSome = true ∧ r.proposers = 0
      ∧ ∀ a, own a = true → r.votes[a] = none := by
  simp [RoundRecord.InStep, hc]

/-- An IDLE or HALTED record in step, field by field. -/
theorem RoundRecord.inStep_resting (hr : r.state = .idle ∨ r.state = .halted) :
    r.InStep own ↔ r.roundDeadline = none ∧ r.graceDeadline = none ∧ r.proposers = 0
      ∧ ∀ a, own a = true → r.votes[a] = none := by
  obtain hr | hr := hr <;> simp [RoundRecord.InStep, hr]

theorem RoundRecord.InStep.abandoned (h : r.InStep own) (ho : r.state = .opened) : r.abandoned.InStep own := by
  obtain ⟨-, hg, -, -, -⟩ := (RoundRecord.inStep_opened ho).mp h
  rw [RoundRecord.inStep_resting (Or.inl rfl)]
  exact ⟨rfl, hg, rfl, fun a _ => by simp [RoundRecord.abandoned]⟩

theorem recordVerdict_ne (votes : Vector (Option Verdict) 16) {a b : Station} (v : Verdict) (hb : b ≠ a) :
    (recordVerdict votes a v)[b] = votes[b] := by
  unfold recordVerdict
  split
  · rfl
  · exact Vector.getElem_set_ne _ _ fun hv => hb (Fin.ext hv.symm)

/-- A verdict recorded for another station. -/
theorem RoundRecord.InStep.recording (h : r.InStep own) {a : Station} (ha : own a = false) (v : Verdict) :
    { r with votes := recordVerdict r.votes a v }.InStep own := by
  obtain ⟨hd, hg, hp, hv, hvotes⟩ := h
  refine ⟨hd, hg, hp, hv, fun b hb => ?_⟩
  have hne : b ≠ a := fun hba => by simp [hba, ha] at hb
  exact (recordVerdict_ne r.votes v hne).trans (hvotes b hb)

end

/-! ### Deciding -/

section
variable {s : State}

theorem RoundInStep.recomputeTargets (h : RoundInStep s) : RoundInStep s.recomputeTargets := h

theorem RoundInStep.offer (h : RoundInStep s) (f : Pending) : RoundInStep (s.offer f) :=
  h.congr (State.offer_round s f) (State.offer_image s f)

theorem RoundInStep.purge (h : RoundInStep s) (p : Pending → Bool) : RoundInStep (s.purge p) := h

theorem RoundInStep.roundOpened (h : RoundInStep s) : RoundInStep s.roundOpened :=
  h.congr s.roundOpened_round s.roundOpened_moves.image

theorem RoundInStep.storeRound {r : RoundRecord} (h : r.InStep s.isOwn) : RoundInStep (s.storeRound r) :=
  .of_record h (s.storeRound_round r) (s.storeRound_image r)

theorem State.halt_round (s : State) : s.halt.round = { s.round with state := .halted, graceDeadline := none } := by
  simp [State.halt, State.mirrorLatch]

theorem RoundInStep.halt (h : RoundInStep s) (hc : s.round.state = .committed) : RoundInStep s.halt := by
  obtain ⟨hd, -, hp, hv⟩ := (RoundRecord.inStep_committed hc).mp h
  refine .of_record (s := s) ?_ s.halt_round s.halt_moves.image
  exact (RoundRecord.inStep_resting (Or.inr rfl)).mpr ⟨hd, rfl, hp, hv⟩

theorem RoundInStep.graceAtOnce (h : RoundInStep s) : RoundInStep s.graceAtOnce := by
  unfold State.graceAtOnce
  split
  case isTrue hc => exact h.halt hc.1
  case isFalse => exact h

theorem RoundInStep.commitByTally (h : RoundInStep s) : RoundInStep s.commitByTally := by
  obtain ⟨-, -, -, -, hv⟩ := h
  have hr : s.tallyRecord.InStep s.isOwn := (RoundRecord.inStep_committed rfl).mpr ⟨rfl, rfl, rfl, hv⟩
  exact (((RoundInStep.storeRound hr).purge _).offer _).graceAtOnce

theorem RoundInStep.commitTest (h : RoundInStep s) : RoundInStep s.commitTest := by
  unfold State.commitTest
  split
  · exact h.commitByTally
  · exact h

theorem RoundInStep.adopt (h : RoundInStep s) (r : Byte) (set : Option StationSet) : RoundInStep (s.adopt r set) := by
  obtain ⟨-, -, -, -, hv⟩ := h
  have hr : (s.adoptedRecord r set).InStep s.isOwn := by
    refine (RoundRecord.inStep_committed rfl).mpr ⟨rfl, rfl, rfl, fun a ha => ?_⟩
    simp only [State.adoptedRecord]
    split
    · exact hv a ha
    · simp
  exact ((RoundInStep.storeRound hr).purge _).graceAtOnce

end

/-! ### Opening, proposing and answering -/

section
variable {s : State}

/-- A co-proposal mends a proposer set left empty by the opening it answers (R25, R30). -/
theorem RoundInStep.coPropose (ho : s.round.state = .opened) (hd : s.round.roundDeadline.isSome = true)
    (hg : s.round.graceDeadline = none) (hv : ∀ a, s.isOwn a = true → s.round.votes[a] = none) :
    RoundInStep s.coPropose := by
  have hr : { s.round with
      proposers := insertMember s.round.proposers s.own, ownVerdict := some Verdict.concur }.InStep s.isOwn :=
    (RoundRecord.inStep_opened (by exact ho)).mpr ⟨hd, hg, insertMember_ne_zero _ _, rfl, hv⟩
  have h' := ((RoundInStep.storeRound hr).purge fun f => f == .withdraw s.round.number).offer
    (s.proposeFrame s.round.number)
  unfold State.coPropose
  dsimp only
  split
  · exact h'
  · exact h'.commitTest

theorem RoundInStep.coPropose_of_opened (h : RoundInStep s) (ho : s.round.state = .opened) :
    RoundInStep s.coPropose := by
  obtain ⟨hd, hg, -, -, hv⟩ := (RoundRecord.inStep_opened ho).mp h
  exact RoundInStep.coPropose ho hd hg hv

theorem RoundInStep.openOwn (h : RoundInStep s) (hi : s.round.state = .idle) : RoundInStep s.openOwn := by
  obtain ⟨-, hg, -, -⟩ := (RoundRecord.inStep_resting (Or.inl hi)).mp h
  have hr : s.ownRoundRecord.InStep s.isOwn :=
    (RoundRecord.inStep_opened rfl).mpr
      ⟨rfl, hg, single_ne_zero _, rfl, fun a _ => by simp [State.ownRoundRecord]⟩
  exact (((RoundInStep.storeRound hr).offer _).roundOpened).commitTest

theorem RoundInStep.propose (h : RoundInStep s) : RoundInStep s.propose := by
  unfold State.propose
  split
  · split
    next hi => exact h.openOwn hi
    next ho => exact h.coPropose_of_opened ho
    next => exact h
    next => exact h
  · exact h

theorem RoundInStep.answerOpening (h : RoundInStep s) (ho : s.round.state = .opened) :
    RoundInStep s.answerOpening := by
  unfold State.answerOpening
  split
  · exact h.coPropose_of_opened ho
  · split
    · exact h.offer _
    · exact h

theorem RoundInStep.openHeard {r : RoundRecord} (hr : r.InStep s.isOwn) (ho : r.state = .opened) :
    RoundInStep (s.openHeard r) :=
  ((RoundInStep.storeRound hr).roundOpened.answerOpening (by simp [ho])).commitTest

/-- An opening that leaves no proposer is answered by a co-proposal where the node is ACTIVE and critical (R30, R31). -/
theorem RoundInStep.openHeard_without_proposer {r : RoundRecord} (ho : r.state = .opened)
    (hd : r.roundDeadline.isSome = true) (hg : r.graceDeadline = none)
    (hv : ∀ a, s.isOwn a = true → r.votes[a] = none) (hp : r.proposers = 0) (ha : s.isActive = true)
    (hc : s.nodeCritical = true) : RoundInStep (s.openHeard r) := by
  have hround : (s.storeRound r).roundOpened.round = r := by simp
  have hm : (s.storeRound r).RoundMoves (s.storeRound r).roundOpened := (s.storeRound r).roundOpened_moves
  have hown : (s.storeRound r).roundOpened.isOwn = s.isOwn :=
    State.isOwn_of_image (hm.image.trans (s.storeRound_image r))
  have hcrit : (s.storeRound r).roundOpened.nodeCritical = true := by
    rw [State.nodeCritical_congr hm.channels, State.storeRound_nodeCritical, hc]
  have hnone : ∀ a, member r.proposers a = false := by
    rw [hp]
    exact member_zero
  have htest : (s.storeRound r).roundOpened.proposalTest = true := by
    simp [State.proposalTest, hm.isActive, ha, hcrit, hnone]
  unfold State.openHeard State.answerOpening
  rw [if_pos htest]
  refine (RoundInStep.coPropose ?_ ?_ ?_ ?_).commitTest
  · rw [hround, ho]
  · rw [hround, hd]
  · rw [hround, hg]
  · rw [hround, hown]
    exact hv

/-! ### Abandoning and withdrawing -/

theorem State.abandon_round (s : State) : s.abandon.round = s.round.abandoned := by
  rw [State.abandon_spec]

theorem RoundInStep.abandon (h : RoundInStep s) (ho : s.round.state = .opened) : RoundInStep s.abandon :=
  (RoundInStep.storeRound (RoundRecord.InStep.abandoned h ho)).purge _

theorem RoundInStep.dropProposer (h : RoundInStep s) (ho : s.round.state = .opened) (a : Station) :
    RoundInStep (s.dropProposer a) := by
  unfold State.dropProposer
  dsimp only
  split
  case isTrue => exact (h.abandon ho).propose
  case isFalse hp =>
    obtain ⟨hd, hg, -, hv, hvotes⟩ := (RoundRecord.inStep_opened ho).mp h
    exact .storeRound ((RoundRecord.inStep_opened (by exact ho)).mpr ⟨hd, hg, hp, hv, hvotes⟩)

theorem RoundInStep.withdrawOwn (h : RoundInStep s) : RoundInStep s.withdrawOwn := by
  unfold State.withdrawOwn
  split
  case isTrue hw => exact ((h.purge _).offer _).dropProposer (by simp [hw.1]) _
  case isFalse => exact h

/-! ### Verdicts -/

theorem RoundInStep.recordVote (h : RoundInStep s) {a : Station} (ha : s.isOwn a = false) (v : Verdict) :
    RoundInStep (s.recordVote a v) :=
  (RoundInStep.storeRound (RoundRecord.InStep.recording h ha v)).commitTest

theorem RoundInStep.verdictChanged (h : RoundInStep s) (v : Verdict) : RoundInStep (s.verdictChanged v) := by
  unfold State.verdictChanged
  split
  case isTrue hv =>
    obtain ⟨hd, hg, hp, -, hvotes⟩ := (RoundRecord.inStep_opened hv.1).mp h
    have hr : { s.round with ownVerdict := some Verdict.concur }.InStep s.isOwn :=
      (RoundRecord.inStep_opened (by exact hv.1)).mpr ⟨hd, hg, hp, rfl, hvotes⟩
    exact ((RoundInStep.storeRound hr).offer _).commitTest
  case isFalse => exact h

/-! ### Round frames heard -/

theorem State.heardRoundRecord_votes (s : State) (r : Byte) (p : StationSet) {a : Station} (v : Option Verdict)
    (x : Option Reason) (ha : s.isOwn a = false) :
    ∀ b, s.isOwn b = true → (s.heardRoundRecord r p a v x).votes[b] = none := by
  intro b hb
  have hne : a.val ≠ b.val := fun hv => by rw [← Fin.ext hv, ha] at hb; simp at hb
  simp [State.heardRoundRecord, Vector.getElem_set_ne _ _ hne]

theorem RoundInStep.heardRoundRecord (hg : s.round.graceDeadline = none) (r : Byte) {p : StationSet} (hp : p ≠ 0)
    {a : Station} (ha : s.isOwn a = false) (v : Option Verdict) (x : Option Reason) :
    (s.heardRoundRecord r p a v x).InStep s.isOwn :=
  (RoundRecord.inStep_opened rfl).mpr ⟨rfl, hg, hp, rfl, s.heardRoundRecord_votes r p v x ha⟩

theorem RoundInStep.openFromPropose (hg : s.round.graceDeadline = none) {a : Station} (ha : s.isOwn a = false)
    (r : Byte) (c : Channel) (x : HalfDegrees) : RoundInStep (s.openFromPropose a r c x) :=
  .openHeard (RoundInStep.heardRoundRecord hg r (single_ne_zero a) ha _ _) rfl

/-- An IDLE record in step has no grace deadline, and so has one just abandoned. -/
theorem RoundInStep.grace_of_idle (h : RoundInStep s) (hi : s.round.state = .idle) : s.round.graceDeadline = none :=
  ((RoundRecord.inStep_resting (Or.inl hi)).mp h).2.1

theorem RoundInStep.grace_of_abandoned (h : RoundInStep s) (ho : s.round.state = .opened) :
    s.abandon.round.graceDeadline = none :=
  (h.abandon ho).grace_of_idle (by rw [State.abandon_round]; rfl)

theorem State.abandon_isOwn (s : State) : s.abandon.isOwn = s.isOwn := State.isOwn_of_image s.abandon_moves.image

theorem RoundInStep.hearPropose (h : RoundInStep s) {a : Station} (ha : s.isOwn a = false) (r : Byte) (c : Channel)
    (x : HalfDegrees) : RoundInStep (s.hearPropose a r c x) := by
  unfold State.hearPropose
  split
  next hi =>
    split
    · exact h
    · exact .openFromPropose (h.grace_of_idle hi) ha r c x
  next ho =>
    split
    · obtain ⟨hd, hg, -, hv, hvotes⟩ := (RoundRecord.inStep_opened ho).mp h
      have hr : { s.round with proposers := insertMember s.round.proposers a }.InStep s.isOwn :=
        (RoundRecord.inStep_opened (by exact ho)).mpr ⟨hd, hg, insertMember_ne_zero _ _, hv, hvotes⟩
      refine (RoundInStep.storeRound hr).recordVote ?_ _
      rw [State.isOwn_of_image (s.storeRound_image _), ha]
    · split
      · exact .openFromPropose (h.grace_of_abandoned ho) (by rw [s.abandon_isOwn, ha]) r c x
      · exact h
  next => exact h
  next => exact h

theorem RoundInStep.openFromStatus (h : RoundInStep s) (hg : s.round.graceDeadline = none) {a : Station}
    (ha : s.isOwn a = false) (f : StatusFields) : RoundInStep (s.openFromStatus a f) := by
  unfold State.openFromStatus
  dsimp only
  by_cases hp : removeMember f.proposers s.own = 0
  · by_cases hc : s.isActive = true ∧ s.nodeCritical = true
    · rw [if_neg fun hn => hn.2 hc]
      exact .openHeard_without_proposer rfl rfl hg (s.heardRoundRecord_votes _ _ _ _ ha) hp hc.1 hc.2
    · rw [if_pos ⟨hp, hc⟩]
      exact h
  · rw [if_neg fun hn => hp hn.1]
    exact .openHeard (RoundInStep.heardRoundRecord hg _ hp ha _ _) rfl

theorem RoundInStep.hearOpenStatus (h : RoundInStep s) {a : Station} (ha : s.isOwn a = false) (f : StatusFields) :
    RoundInStep (s.hearOpenStatus a f) := by
  unfold State.hearOpenStatus
  split
  next hi =>
    split
    · exact h
    · exact h.openFromStatus (h.grace_of_idle hi) ha f
  next ho =>
    split
    · split
      · exact h.recordVote ha _
      · exact h
    · split
      · exact (h.abandon ho).openFromStatus (h.grace_of_abandoned ho) (by rw [s.abandon_isOwn, ha]) f
      · exact h
  next => exact h
  next => exact h

theorem RoundInStep.hearCommitment (h : RoundInStep s) (r : Byte) (set : Option StationSet) :
    RoundInStep (s.hearCommitment r set) := by
  unfold State.hearCommitment
  split
  · exact h.adopt r set
  · exact h.adopt r set
  · exact h
  · exact h

theorem RoundInStep.hearStatusRound (h : RoundInStep s) {a : Station} (ha : s.isOwn a = false) (f : StatusFields) :
    RoundInStep (s.hearStatusRound a f) := by
  unfold State.hearStatusRound
  split
  · exact h
  · exact h.hearOpenStatus ha f
  · exact h.hearCommitment _ _
  · exact h.hearCommitment _ _

theorem RoundInStep.hearVote (h : RoundInStep s) {a : Station} (ha : s.isOwn a = false) (r : Byte) (v : Verdict) :
    RoundInStep (s.hearVote a r v) := by
  unfold State.hearVote
  split
  · exact h.recordVote ha v
  · exact h

theorem RoundInStep.hearWithdraw (h : RoundInStep s) (a : Station) (r : Byte) : RoundInStep (s.hearWithdraw a r) := by
  unfold State.hearWithdraw
  split
  case isTrue hw => exact h.dropProposer hw.1 a
  case isFalse => exact h

/-! ### Deliveries -/

theorem RoundInStep.deliverEligible (h : RoundInStep s) (b : Bool) : RoundInStep (s.deliverEligible b) := by
  unfold State.deliverEligible
  dsimp only
  have h' : RoundInStep { s with eligible := s.eligibleNow } := h
  split
  · exact h'.commitTest
  · exact h'

theorem RoundInStep.changePeer (h : RoundInStep s) (a : Station) (f : PeerEntry → PeerEntry) :
    RoundInStep (s.changePeer a f) := by
  unfold State.changePeer
  dsimp only
  have h' : RoundInStep (s.setPeer a (f (s.peer a))) := h
  split
  · exact h'.deliverEligible _
  · exact (h'.deliverEligible _).recomputeTargets

theorem RoundInStep.roundEntersActive (h : RoundInStep s) : RoundInStep s.roundEntersActive := by
  unfold State.roundEntersActive
  split
  next => exact h.propose
  next ho => exact (h.answerOpening ho).commitTest
  next => exact h
  next => exact h

theorem RoundInStep.takeEntry (h : RoundInStep s) (b : Bool) : RoundInStep (s.takeEntry b) := by
  unfold State.takeEntry
  split
  · exact h.roundEntersActive.deliverEligible false
  · exact (h.deliverEligible false).roundEntersActive

end

end Sys2Proof.Machine

/-! # The invariants along the shared operations: `Sound`, the invariants but for what is recomputed last -/

namespace Sys2Proof.Machine

/-! ### What stands while a command is under way -/

/-- The invariants but for P, the targets and the sums of the records, which a command recomputes after the change that
calls for it. -/
structure Sound (s : State) : Prop where
  rests : RestsUntilLoaded s
  held : HeldByResetLine s
  configured : ConfiguredWhileRunning s
  loader : LoaderInStep s
  own : OwnEntryMirrors s
  ageing : PeersAge s
  round : RoundInStep s
  latch : HaltedHoldsLatch s
  watches : WatchesInStep s
  samples : SampleDeadlinesArmed s
  duties : DutiesFollow s
  supervised : FansSupervised s
  queue : QueueInStep s
  faults : FaultsBounded s
  own_frame : OwnFrameOnWire s
  life : LifeDeadlinesInStep s
  leave : LeaveFlagTrue s

theorem NodeInv.sound {s : State} (h : NodeInv s) : Sound s := { h with }

theorem Sound.nodeInv {s : State} (h : Sound s) (he : EligibleCounted s) (ht : TargetsCurrent s)
    (hs : SensorsSummed s) : NodeInv s :=
  { h with eligible := he, targets := ht, summed := hs }

section
variable {s t : State}

/-! ### Reading the invariants -/

theorem State.isOwn_iff (a : Station) : s.isOwn a = true ↔ s.image.isSome = true ∧ a = s.own := by
  simp [State.isOwn]

theorem State.not_isOwn_of_ne {a : Station} (h : a ≠ s.own) : s.isOwn a = false := by
  simp [State.isOwn, h]

theorem Sound.image_isSome (h : Sound s) (hr : s.running = true) : s.image.isSome = true := by
  obtain ⟨g, hg, -⟩ := h.configured hr
  simp [hg]

/-- In a running node the own address is that of the own entry. -/
theorem Sound.isOwn_own (h : Sound s) (hr : s.running = true) : s.isOwn s.own = true :=
  (State.isOwn_iff _).mpr ⟨h.image_isSome hr, rfl⟩

theorem Sound.ne_own (h : Sound s) (hr : s.running = true) {a : Station} (ha : s.isOwn a = false) : a ≠ s.own := by
  rintro rfl
  simp [h.isOwn_own hr] at ha

/-- The queue admits what its node state admits, and holds no two entries of a kind. -/
theorem QueueInStep.ok (h : QueueInStep s) : QueueOk s.life.nodeState s.queue := ⟨h.1, h.2.1⟩

/-- A queue of a node state that admits nothing is empty, and nothing is in flight. -/
theorem QueueInStep.empty (h : QueueInStep s) (hn : ∀ k, s.life.nodeState.admits k = false) :
    s.queue = [] ∧ s.link.inFlight = none := by
  obtain ⟨-, hq, hf, -⟩ := h
  refine ⟨List.eq_nil_iff_forall_not_mem.mpr fun f hm => ?_, Option.eq_none_iff_forall_not_mem.mpr fun f hm => ?_⟩
  · simpa [hn] using hq f hm
  · simpa [hn] using hf f hm

/-- Nothing has to rest in a running node. -/
theorem RestsUntilLoaded.of_running (hr : s.running = true) : RestsUntilLoaded s :=
  fun hn => absurd (hr.symm.trans hn) (by decide)

/-! ### What moves with the Round Controller -/

section
variable (hm : s.RoundMoves t)
include hm

theorem State.RoundMoves.nodeCritical : t.nodeCritical = s.nodeCritical := State.nodeCritical_congr hm.channels

theorem State.RoundMoves.watch (c : Channel) : t.watch c = s.watch c := by
  simp only [State.watch, hm.channels]

theorem State.RoundMoves.channelCfg (c : Channel) : t.channelCfg c = s.channelCfg c := by
  simp only [State.channelCfg, hm.cfg]

theorem State.RoundMoves.channelsWhere (p : WatchRecord → Bool) : t.channelsWhere p = s.channelsWhere p := by
  simp only [State.channelsWhere, hm.watch]

/-- An entry in which nothing but the shutdown held flag may have changed. -/
theorem State.RoundMoves.peer (a : Station) :
    t.peer a = { s.peer a with shutdownHeld := (t.peer a).shutdownHeld } := by
  have he := hm.entry a
  revert he
  cases t.peer a
  cases s.peer a
  simp

theorem OwnEntryMirrors.moves (h : OwnEntryMirrors s) : OwnEntryMirrors t := by
  intro hr
  have hs := h (hm.running ▸ hr)
  have hheld : (t.peer s.own).shutdownHeld = t.shutdownLatch := hm.held (by rw [hs])
  rw [hm.own, hm.peer, hheld, hs, hm.cfg, hm.localDemand, hm.nodeCritical, hm.fanFailed, hm.fanFailed,
    hm.channelsWhere, hm.channelsWhere, hm.channelsWhere]

theorem PeersAge.moves (h : PeersAge s) : PeersAge t := by
  intro a ha
  rw [hm.peer a, hm.cfg]
  exact h a (hm.isOwn a ▸ ha)

theorem WatchesInStep.moves (h : WatchesInStep s) : WatchesInStep t := by
  intro hr c
  rw [hm.channelCfg, hm.watch]
  exact h (hm.running ▸ hr) c

theorem SampleDeadlinesArmed.moves (h : SampleDeadlinesArmed s) : SampleDeadlinesArmed t := by
  intro c
  simp only [hm.sampleDeadlines, hm.running, hm.channelCfg]
  exact h c

theorem FansSupervised.moves (h : FansSupervised s) : FansSupervised t := by
  intro f
  obtain ⟨hw, hc⟩ := h f
  obtain ⟨hstall, hgood⟩ := hm.counts f
  refine ⟨by rw [hm.windowDeadline, hm.running, hw], ?_⟩
  simpa only [FanRecord.CountsInStep, hstall, hgood, hm.condition] using hc

theorem QueueInStep.moves (h : QueueInStep s) : QueueInStep t := by
  obtain ⟨hn, hq⟩ := hm.queue h.ok
  obtain ⟨-, -, hf, hj⟩ := h
  rw [QueueInStep, hm.nodeState, hm.link]
  refine ⟨hn, hq, hf, fun hjoin => (hj hjoin).imp_left fun he => ?_⟩
  have hsub := hm.quiet (by simp [hjoin])
  rw [he] at hsub
  exact List.sublist_nil.mp hsub

theorem LifeDeadlinesInStep.moves (h : LifeDeadlinesInStep s) : LifeDeadlinesInStep t := by
  rw [LifeDeadlinesInStep, hm.listenDeadline, hm.recoveryDeadline, hm.statusDeadline, hm.nodeState]
  exact h

theorem EligibleCounted.moves (h : EligibleCounted s) : EligibleCounted t := by
  rw [EligibleCounted, hm.eligible, hm.eligibleNow]
  exact h

theorem SensorsSummed.moves (h : SensorsSummed s) : SensorsSummed t := by
  intro hr
  rw [hm.localDemand, hm.standing, State.localDemandNow_congr hm.channels hm.image,
    State.standingNow_congr hm.channels hm.image]
  exact h (hm.running ▸ hr)

/-- In a running node, whatever moves as the Round Controller moves it stays sound. -/
theorem Sound.moves (h : Sound s) (hr : s.running = true) (hround : RoundInStep t) : Sound t where
  rests := .of_running (hm.running.trans hr)
  held := by
    rw [HeldByResetLine, hm.resetLine, hm.nodeState, hm.loader, hm.port]
    exact h.held
  configured := by
    rw [ConfiguredWhileRunning, hm.running, hm.image]
    exact h.configured
  loader := by
    rw [LoaderInStep, hm.loader, hm.nodeState]
    exact h.loader
  own := h.own.moves hm
  ageing := h.ageing.moves hm
  round := hround
  latch := hm.halted h.latch
  watches := h.watches.moves hm
  samples := h.samples.moves hm
  duties := hm.duties h.duties
  supervised := h.supervised.moves hm
  queue := h.queue.moves hm
  faults := by
    rw [FaultsBounded, hm.link, hm.nodeState]
    exact h.faults
  own_frame := by
    rw [OwnFrameOnWire, hm.link]
    exact h.own_frame
  life := h.life.moves hm
  leave := hm.leave h.leave

theorem NodeInv.moves (h : NodeInv s) (hr : s.running = true) (hround : RoundInStep t) : NodeInv t :=
  (h.sound.moves hm hr hround).nodeInv (h.eligible.moves hm) (hm.targets h.targets) (h.summed.moves hm)

end

/-! ### Offers -/

/-- Another frame than a JOIN or a LEAVE, offered. -/
theorem QueueInStep.offer (h : QueueInStep s) {f : Pending} (hj : f.kind ≠ .join) : QueueInStep (s.offer f) := by
  obtain ⟨hn, hq⟩ := h.ok.offer f
  obtain ⟨-, -, hf, hjoin⟩ := h
  rw [QueueInStep, State.offer_life, State.offer_link]
  refine ⟨hn, hq, hf, fun hs => (hjoin hs).imp_left fun he => ?_⟩
  have ha : s.life.nodeState.admits f.kind = false := by simp [hs, NodeState.admits, hj]
  rw [State.offer_queue, ha]
  exact he

theorem LeaveFlagTrue.offer (h : LeaveFlagTrue s) {f : Pending} (hl : f.kind ≠ .leave) :
    LeaveFlagTrue (s.offer f) := by
  have hk : pendingKind (s.offer f).queue .leave = pendingKind s.queue .leave := by
    rw [State.offer_queue]
    split
    · exact pendingKind_enqueue_ne s.queue f hl
    · rfl
  rw [LeaveFlagTrue, State.offer_life, State.offer_link, hk]
  exact h

/-- A queue changed as offers of frames other than JOIN and LEAVE change it leaves the rest as it was. -/
theorem Sound.withQueue (h : Sound s) (hr : s.running = true) {q : List Pending}
    (hq : QueueInStep { s with queue := q }) (hl : LeaveFlagTrue { s with queue := q }) :
    Sound { s with queue := q } :=
  { h with rests := .of_running hr, queue := hq, leave := hl }

theorem NodeInv.withQueue (h : NodeInv s) (hr : s.running = true) {q : List Pending}
    (hq : QueueInStep { s with queue := q }) (hl : LeaveFlagTrue { s with queue := q }) :
    NodeInv { s with queue := q } :=
  (h.sound.withQueue hr hq hl).nodeInv h.eligible h.targets h.summed

theorem NodeInv.offer (h : NodeInv s) (hr : s.running = true) {f : Pending} (hj : f.kind ≠ .join)
    (hl : f.kind ≠ .leave) : NodeInv (s.offer f) := by
  have hq := h.queue.offer hj
  have hlf := h.leave.offer hl
  rw [State.offer_frame] at hq hlf ⊢
  exact h.withQueue hr hq hlf

theorem Sound.offer (h : Sound s) (hr : s.running = true) {f : Pending} (hj : f.kind ≠ .join)
    (hl : f.kind ≠ .leave) : Sound (s.offer f) := by
  have hq := h.queue.offer hj
  have hlf := h.leave.offer hl
  rw [State.offer_frame] at hq hlf ⊢
  exact h.withQueue hr hq hlf

/-- ALARM records offered, as far as the queue goes (R66). -/
theorem QueueInStep.offerRecords (h : QueueInStep s) (rs : List AlarmRecord) : QueueInStep (s.offerRecords rs) := by
  unfold State.offerRecords
  induction rs generalizing s with
  | nil => exact h
  | cons r rs ih => exact ih (h.offer (by simp [FrameOf.kind]))

theorem LeaveFlagTrue.offerRecords (h : LeaveFlagTrue s) (rs : List AlarmRecord) :
    LeaveFlagTrue (s.offerRecords rs) := by
  unfold State.offerRecords
  induction rs generalizing s with
  | nil => exact h
  | cons r rs ih => exact ih (h.offer (by simp [FrameOf.kind]))

/-! ### The link, the clock and the port -/

/-- What the invariants say of the link, for a link that carries the same frame and the same count. -/
theorem NodeInv.withLink (h : NodeInv s) (hr : s.running = true) (l : Link) (hf : l.inFlight = s.link.inFlight)
    (hc : l.faults = s.link.faults) (how : l.ownOnWire = true → l.receiver = .receiving) :
    NodeInv { s with link := l } :=
  { h with
    rests := .of_running hr
    queue := by
      have hq := h.queue
      rwa [QueueInStep, ← hf] at hq
    faults := by
      have hb := h.faults
      rwa [FaultsBounded, ← hc] at hb
    own_frame := how
    leave := by
      have hl := h.leave
      rwa [LeaveFlagTrue, ← hf] at hl }

/-- No invariant reads the clock, the count of choices or the waiting commands. -/
theorem NodeInv.withClock (h : NodeInv s) (now : Millis) (choices : Nat) (pending : List Instr) :
    NodeInv { s with now := now, choices := choices, pending := pending } :=
  { h with
    rests := fun hn => by
      have hs := h.rests hn
      exact congrArg (fun u : State => { u with now := now, choices := choices, pending := pending }) hs }

/-- No invariant reads a port that the RESET line does not hold. -/
theorem NodeInv.withPort (h : NodeInv s) (hr : s.resetLine = false) (p : Option Transaction) :
    NodeInv { s with port := p } :=
  { h with
    rests := fun hn => by
      have hs := h.rests hn
      exact congrArg (fun u : State => { u with port := p }) hs
    held := fun hl => absurd hr (by simpa using hl) }

end

end Sys2Proof.Machine

/-! # Reset and load (09, 10): the invariants of a node at rest, and of one that has just loaded its image -/

namespace Sys2Proof.Machine

/-! ### A node at rest -/

section
variable {s : State}

/-- What the blocks of a node at rest hold, read off `State.atRest` (R156, R158). -/
structure State.Resting (s : State) : Prop where
  image : s.image = none
  life : s.life = { LifeCycle.reset with nodeState := s.life.nodeState }
  sampleDeadlines : s.sampleDeadlines = Vector.replicate 8 none
  channels : s.channels = Vector.replicate 8 WatchRecord.reset
  peers : s.peers = Vector.replicate 16 PeerEntry.reset
  eligible : s.eligible = 0
  round : s.round = RoundRecord.reset
  fanA : s.fanA = FanRecord.reset
  fanB : s.fanB = FanRecord.reset
  queue : s.queue = []
  link : s.link = Link.reset

theorem State.resting_of_atRest (hs : s = s.atRest) : s.Resting where
  image := congrArg State.image hs
  life := congrArg State.life hs
  sampleDeadlines := congrArg State.sampleDeadlines hs
  channels := congrArg State.channels hs
  peers := congrArg State.peers hs
  eligible := congrArg State.eligible hs
  round := congrArg State.round hs
  fanA := congrArg State.fanA hs
  fanB := congrArg State.fanB hs
  queue := congrArg State.queue hs
  link := congrArg State.link hs

theorem NodeInv.resting (h : NodeInv s) (hn : s.running = false) : s.Resting := State.resting_of_atRest (h.rests hn)

section
variable (h : s.Resting)
include h

theorem State.Resting.fan (f : FanId) : s.fan f = FanRecord.reset := by
  cases f
  · exact h.fanA
  · exact h.fanB

theorem State.Resting.peer (a : Station) : s.peer a = PeerEntry.reset := by
  simp [State.peer, h.peers]

theorem State.Resting.watch (c : Channel) : s.watch c = WatchRecord.reset := by
  simp [State.watch, h.channels]

end

theorem State.isActive_of_not_running (hn : s.running = false) : s.isActive = false := by
  revert hn
  unfold State.running State.isActive
  cases s.life.nodeState <;> simp [NodeState.runs]

theorem State.nodeState_of_not_running (hn : s.running = false) :
    s.life.nodeState = .loading ∨ s.life.nodeState = .configFault := by
  revert hn
  unfold State.running
  cases s.life.nodeState <;> simp [NodeState.runs]

/-- In LOADING and CONFIG_FAULT the invariants ask for the reset values, for a loader in step and for the hold of the RESET
line (R156, R158). -/
theorem NodeInv.of_rest (hs : s = s.atRest) (hn : s.running = false) (hh : HeldByResetLine s) (hl : LoaderInStep s) :
    NodeInv s := by
  have hr := State.resting_of_atRest hs
  have hfloor : s.cfg.stallFloor = 0 := by simp [State.cfg, hr.image, StartImage.blank]
  have hlife : s.life.listenDeadline = none ∧ s.life.recoveryDeadline = none ∧ s.life.statusDeadline = none
      ∧ s.life.leavePending = false := by
    rw [hr.life]
    exact ⟨rfl, rfl, rfl, rfl⟩
  obtain ⟨hlisten, hrecovery, hstatus, hflag⟩ := hlife
  have hstate := State.nodeState_of_not_running hn
  refine
    { rests := fun _ => hs
      held := hh
      loader := hl
      configured := fun hr' => absurd (hn.symm.trans hr') (by decide)
      own := fun hr' => absurd (hn.symm.trans hr') (by decide)
      watches := fun hr' => absurd (hn.symm.trans hr') (by decide)
      summed := fun hr' => absurd (hn.symm.trans hr') (by decide)
      eligible := ?eligible, ageing := ?ageing, round := ?round, latch := ?latch, samples := ?samples
      targets := ?targets, duties := ?duties, supervised := ?supervised, queue := ?queue, faults := ?faults
      own_frame := ?ownFrame, life := ?life, leave := ?leave }
  case eligible =>
    have hcount : s.countsInP = fun _ => false := by
      funext a
      simp [State.countsInP, hr.peer, PeerEntry.reset]
    simp [EligibleCounted, hr.eligible, State.eligibleNow, State.isActive_of_not_running hn, hcount]
  case ageing =>
    intro a _
    simp [hr.peer, PeerEntry.reset]
  case round => simp [RoundInStep, hr.round, RoundRecord.reset]
  case latch => simp [HaltedHoldsLatch, hr.round, RoundRecord.reset]
  case samples =>
    intro c
    simp [hr.sampleDeadlines, hn]
  case targets =>
    intro f
    obtain ⟨ht, hreason⟩ := s.targetNow_stopped f hn
    rw [ht, hreason, hr.fan]
    exact ⟨rfl, rfl⟩
  case duties =>
    intro f
    simp [FanRecord.Follows, hr.fan, FanRecord.reset]
  case supervised =>
    intro f
    simp [FanRecord.CountsInStep, hr.fan, FanRecord.reset, hn, Config.persistence]
  case queue => simp [QueueInStep, hr.queue, hr.link, Link.reset]
  case faults => simp [FaultsBounded, hr.link, Link.reset, Config.faultLimit]
  case ownFrame => simp [OwnFrameOnWire, hr.link, Link.reset]
  case life =>
    obtain hstate | hstate := hstate <;> simp [LifeDeadlinesInStep, hlisten, hrecovery, hstatus, hstate]
  case leave => simp [LeaveFlagTrue, hflag, hr.queue, hr.link, Link.reset, pendingKind]

end

/-! ### The two resets (R156) -/

section
variable {s : State}

theorem LoaderInStep.reset : LoaderInStep State.reset := by
  simp [LoaderInStep, State.reset, Loader.reset, LifeCycle.reset, Config.maxAttempts, Config.imageBytes]

theorem State.reset_keeps : NodeInv State.reset :=
  .of_rest rfl rfl (fun _ => ⟨rfl, rfl, rfl⟩) .reset

theorem State.allReset_keeps (latch line : Bool) (s : State) : NodeInv (s.allReset latch line) :=
  .of_rest rfl rfl (fun _ => ⟨rfl, rfl, rfl⟩) LoaderInStep.reset

/-- Another loader in step, in a node that loads and that the RESET line does not hold. -/
theorem NodeInv.withLoader (h : NodeInv s) (hn : s.life.nodeState = .loading) (hline : s.resetLine = false)
    {l : Loader} (hl : LoaderInStep { s with loader := l }) : NodeInv { s with loader := l } := by
  have hr : s.running = false := by simp [State.running, hn, NodeState.runs]
  have hs := h.rests hr
  exact .of_rest (congrArg (fun u : State => { u with loader := l }) hs) hr
    (fun hheld => absurd (hline.symm.trans hheld) (by decide)) hl

theorem NodeInv.beginRead (h : NodeInv s) (hn : s.life.nodeState = .loading) (hline : s.resetLine = false) :
    NodeInv s.beginRead := by
  obtain ⟨-, hf, hattempt⟩ := h.loader
  exact h.withLoader hn hline ⟨fun _ => hn, hf, hattempt⟩

theorem NodeInv.enterLoading (h : NodeInv s) (hn : s.life.nodeState = .loading) : NodeInv s.enterLoading := by
  unfold State.enterLoading
  split
  case isTrue => exact h
  case isFalse hline => exact h.beginRead hn (Bool.not_eq_true _ ▸ hline)

theorem NodeInv.powerOn : NodeInv (s.allReset false s.resetLine).enterLoading :=
  (State.allReset_keeps _ _ s).enterLoading rfl

theorem NodeInv.release (h : NodeInv s) (hline : s.resetLine = true) :
    NodeInv ({ s with resetLine := false } : State).enterLoading := by
  obtain ⟨hn, -, -⟩ := h.held hline
  have hr : s.running = false := by simp [State.running, hn, NodeState.runs]
  have hs := h.rests hr
  have h' : NodeInv { s with resetLine := false } :=
    .of_rest (congrArg (fun u : State => { u with resetLine := false }) hs) hr
      (fun hheld => absurd (show false = true from hheld) (by decide)) h.loader
  exact h'.enterLoading hn

/-! ### The reads of the image (R171, R172) -/

/-- While a read is in progress the node loads, and the RESET line does not hold it (R156, R171). -/
theorem NodeInv.loading_of_reading (h : NodeInv s) (hd : s.loader.byteDeadline.isSome = true) :
    s.life.nodeState = .loading ∧ s.resetLine = false := by
  refine ⟨h.loader.1 hd, Bool.eq_false_iff.mpr fun hline => ?_⟩
  obtain ⟨-, hreset, -⟩ := h.held hline
  simp [hreset, Loader.reset] at hd

/-- A load that fails leaves a node at rest in CONFIG_FAULT (R158). -/
theorem NodeInv.loadFault (h : NodeInv s) (hn : s.life.nodeState = .loading) (hline : s.resetLine = false)
    (c : FaultCode) : NodeInv (s.loadFault c) := by
  have hr : s.running = false := by simp [State.running, hn, NodeState.runs]
  have hrest := h.resting hr
  let u : State := { s with
    loader := { s.loader with faultCode := some c, byteDeadline := none, bytes := [] }
    life := { s.life with nodeState := .configFault } }
  have hfan : ∀ f, u.retarget f = FanRecord.reset := by
    intro f
    obtain ⟨ht, hreason⟩ := u.targetNow_stopped f rfl
    have hf : u.fan f = FanRecord.reset := hrest.fan f
    simp [State.retarget, ht, hreason, hf, FanRecord.reset]
  have hu : s.loadFault c = u :=
    congrArg₂ (fun x y => ({ u with fanA := x, fanB := y } : State))
      ((hfan .a).trans hrest.fanA.symm) ((hfan .b).trans hrest.fanB.symm)
  obtain ⟨-, -, hlo, hhi, -⟩ := h.loader
  rw [hu]
  refine .of_rest ?_ rfl (fun hheld => absurd (hline.symm.trans hheld) (by decide)) ?_
  · have hs := h.rests hr
    exact congrArg (fun v : State => { v with
      loader := { v.loader with faultCode := some c, byteDeadline := none, bytes := [] }
      life := { v.life with nodeState := .configFault } }) hs
  · exact ⟨fun hd => absurd hd (by simp [u]), by simp [u], hlo, hhi, by simp [u, Config.imageBytes]⟩

theorem NodeInv.readFailed (h : NodeInv s) (hd : s.loader.byteDeadline.isSome = true) : NodeInv s.readFailed := by
  obtain ⟨hn, hline⟩ := h.loading_of_reading hd
  obtain ⟨-, hf, hlo, -, -⟩ := h.loader
  unfold State.readFailed
  split
  case isTrue hlt =>
    have hl : LoaderInStep { s with loader := { s.loader with attempt := s.loader.attempt + 1, bytes := [] } } :=
      ⟨fun _ => hn, hf, Nat.le_add_left 1 _, hlt, by simp [Config.imageBytes]⟩
    exact (h.withLoader hn hline hl).beginRead hn hline
  case isFalse => exact h.loadFault hn hline _

/-! ### The end of a good load (R157, R176) -/

theorem allChannels_iff {g : StartImage} {p : ChannelConfig → Bool} :
    allChannels g p = true ↔ ∀ c : Channel, p g.channels[c] = true := by
  simp [allChannels]

/-- An enabled channel of a good configuration needs at least one sample in a row (R174). -/
theorem StartImage.persistence_pos {g : StartImage} (hg : g.good = true) (c : Channel)
    (he : g.channels[c].enabled = true) : 0 < g.channels[c].persistence := by
  simp only [StartImage.good, Bool.and_eq_true] at hg
  have hl := allChannels_iff.mp hg.1.1.2 c
  simp only [limitsGood, he, inSpan, Bool.not_true, Bool.false_or, Bool.and_eq_true, decide_eq_true_eq] at hl
  omega

/-- A watch record at its reset values is in step with every configuration of a good image. -/
theorem WatchInStep.reset {k : ChannelConfig} (hk : k.enabled = true → 0 < k.persistence) :
    WatchInStep k WatchRecord.reset := by
  refine ⟨fun _ => rfl, fun he => ⟨hk he, hk he, hk he⟩, fun _ => rfl, fun _ => rfl, ?_, fun _ => rfl, fun _ => rfl,
    fun _ => ⟨rfl, rfl⟩⟩
  simp [WatchRecord.reset]

theorem FanRecord.reset_opened (now : Millis) (floor : Nat) :
    (FanRecord.reset.openWindow now floor).Follows floor ∧ (FanRecord.reset.openWindow now floor).CountsInStep := by
  simp [FanRecord.Follows, FanRecord.CountsInStep, FanRecord.openWindow, FanRecord.reset, Config.persistence]

/-- Where nothing is left to recompute but the targets. -/
theorem Sound.recomputed (h : Sound s) (hr : s.running = true) (he : EligibleCounted s) (hs : SensorsSummed s) :
    NodeInv s.recomputeTargets :=
  have hm := s.recomputeTargets_moves
  (h.moves hm hr h.round.recomputeTargets).nodeInv (he.moves hm) s.recomputeTargets_current (hs.moves hm)

/-- A good load begins: the configuration is in force, and LISTENING is entered (R157, R176). -/
def State.based (s : State) (g : StartImage) : State :=
  { s with
    image := some g
    loader := { s.loader with byteDeadline := none, bytes := [] }
    life := { s.life with nodeState := .listening, listenDeadline := some (s.now + g.listenInterval) } }

/-- The sample deadlines and the sums of the records are there too (R58, R76, R86). -/
def State.configured (s : State) (g : StartImage) : State :=
  { (s.based g).armSamples with localDemand := (s.based g).localDemandNow, standing := (s.based g).standingNow }

/-- The state in which a good load recomputes the targets: the own entry and the windows are there too, and P is counted. -/
def State.loaded (s : State) (g : StartImage) : State :=
  { (s.configured g).formOwnEntry.openWindows with eligible := (s.configured g).formOwnEntry.openWindows.eligibleNow }

theorem State.loadGood_loaded (s : State) (g : StartImage) : s.loadGood g = (s.loaded g).recomputeTargets :=
  congrArg State.recomputeTargets (State.deliverEligible_notActive (s.configured g).formOwnEntry.openWindows false rfl)

section
variable (s : State) (g : StartImage)

theorem State.loaded_localDemand : (s.loaded g).localDemand = (s.based g).localDemandNow := by
  simp only [State.loaded, State.openWindows, State.formOwnEntry, State.setPeer_localDemand, State.configured]

theorem State.loaded_standing : (s.loaded g).standing = (s.based g).standingNow := by
  simp only [State.loaded, State.openWindows, State.formOwnEntry, State.setPeer_standing, State.configured]

theorem State.loaded_channels : (s.loaded g).channels = s.channels := by
  simp only [State.loaded, State.openWindows, State.formOwnEntry, State.setPeer_channels, State.configured,
    State.armSamples, State.based]

theorem State.loaded_image : (s.loaded g).image = some g := by
  simp only [State.loaded, State.openWindows, State.formOwnEntry, State.setPeer_image, State.configured,
    State.armSamples, State.based]

theorem State.loaded_peers : (s.loaded g).peers = (s.configured g).formOwnEntry.peers := by
  simp only [State.loaded, State.openWindows]

end

theorem State.loaded_summed (s : State) (g : StartImage) : SensorsSummed (s.loaded g) := by
  intro _
  rw [State.loaded_localDemand, State.loaded_standing]
  have hc : (s.loaded g).channels = (s.based g).channels := s.loaded_channels g
  have hi : (s.loaded g).image = (s.based g).image := s.loaded_image g
  exact ⟨(State.localDemandNow_congr hc hi).symm, (State.standingNow_congr hc hi).symm⟩

theorem State.counted (s : State) : EligibleCounted { s with eligible := s.eligibleNow } := rfl

theorem State.loaded_counted (s : State) (g : StartImage) : EligibleCounted (s.loaded g) := State.counted _

/-- The own entry as it is formed mirrors the state it is formed in (R3). -/
theorem State.formOwnEntry_mirrors (s : State) : OwnEntryMirrors s.formOwnEntry :=
  fun _ => State.peer_setPeer_self s s.own _

theorem State.formOwnEntry_peer_ne (s : State) {a : Station} (ha : a ≠ s.own) : s.formOwnEntry.peer a = s.peer a :=
  State.peer_setPeer_ne s ha _

theorem State.loaded_peer_ne (s : State) (g : StartImage) {a : Station} (ha : a ≠ g.address) :
    (s.loaded g).peer a = s.peer a := by
  simp only [State.peer, State.loaded_peers]
  exact (s.configured g).formOwnEntry_peer_ne (a := a) ha

theorem State.Resting.loaded_fan (h : s.Resting) (g : StartImage) (f : FanId) :
    (s.loaded g).fan f = FanRecord.reset.openWindow s.now g.stallFloor := by
  cases f
  · exact congrArg (FanRecord.openWindow s.now g.stallFloor) h.fanA
  · exact congrArg (FanRecord.openWindow s.now g.stallFloor) h.fanB

/-- What the mirrors of the own entry read of the state (R4). -/
theorem OwnEntryMirrors.congr {s t : State} (h : OwnEntryMirrors s) (hr : t.running = s.running)
    (hi : t.image = s.image) (hp : t.peer s.own = s.peer s.own) (hd : t.localDemand = s.localDemand)
    (hc : t.channels = s.channels) (hl : t.shutdownLatch = s.shutdownLatch)
    (hf : ∀ f, t.fanFailed f = s.fanFailed f) : OwnEntryMirrors t := by
  intro hrun
  have hcfg : t.cfg = s.cfg := by simp only [State.cfg, hi]
  have hown : t.own = s.own := by simp only [State.own, hcfg]
  have hset : ∀ p, t.channelsWhere p = s.channelsWhere p := by
    intro p
    simp only [State.channelsWhere, State.watch, hc]
  rw [hown, hp, hcfg, hd, hset, hset, hset, hf, hf, hl, State.nodeCritical_congr hc]
  exact h (hr ▸ hrun)

theorem OwnEntryMirrors.openWindows {s : State} (h : OwnEntryMirrors s) (n : Nat) :
    OwnEntryMirrors { s.openWindows with eligible := n } :=
  h.congr rfl rfl rfl rfl rfl rfl fun f => by cases f <;> rfl

theorem State.loaded_own (s : State) (g : StartImage) : OwnEntryMirrors (s.loaded g) :=
  (s.configured g).formOwnEntry_mirrors.openWindows _

theorem NodeInv.loaded (h : NodeInv s) (hn : s.life.nodeState = .loading) (hline : s.resetLine = false)
    {g : StartImage} (hg : g.good = true) : Sound (s.loaded g) := by
  have hrest := h.resting (by simp [State.running, hn, NodeState.runs])
  obtain ⟨-, hcode, hlo, hhi, -⟩ := h.loader
  have hlife := hrest.life
  have hround : (s.loaded g).round = RoundRecord.reset := hrest.round
  have hlink : (s.loaded g).link = Link.reset := hrest.link
  have hqueue : (s.loaded g).queue = [] := hrest.queue
  have hstate : (s.loaded g).life.nodeState = .listening := rfl
  have hrun : (s.loaded g).running = true := rfl
  refine
    { rests := .of_running hrun
      held := fun hheld => absurd (hline.symm.trans hheld) (by decide)
      configured := fun _ => ⟨g, rfl, hg⟩
      loader := ⟨fun hd => absurd (show (none : Deadline).isSome = true from hd) (by decide), ?code, hlo, hhi,
        Nat.zero_lt_succ _⟩
      own := s.loaded_own g
      ageing := ?ageing, round := ?round
      latch := fun hh => absurd (hround ▸ hh) (by decide)
      watches := ?watches, samples := ?samples
      duties := fun f => ?duties
      supervised := fun f => ?supervised
      queue := ?queue, faults := ?faults, own_frame := ?ownFrame, life := ?life, leave := ?leave }
  case code =>
    have hnone : s.loader.faultCode.isSome = true ↔ False := by simpa [hn] using hcode
    exact hnone.trans (by simp [hstate])
  case ageing =>
    intro a ha
    have hown : (s.loaded g).isOwn g.address = true := (State.isOwn_iff _).mpr ⟨rfl, rfl⟩
    have hne : a ≠ g.address := by
      rintro rfl
      simp [hown] at ha
    rw [State.loaded_peer_ne s g hne, hrest.peer]
    simp [PeerEntry.reset]
  case round => simp [RoundInStep, hround, RoundRecord.reset]
  case watches =>
    intro _ c
    have hw : (s.loaded g).watch c = WatchRecord.reset := hrest.watch c
    rw [hw]
    exact .reset (StartImage.persistence_pos hg c)
  case samples =>
    intro c
    have hd : (s.loaded g).sampleDeadlines[c]
        = if g.channels[c].enabled then some (s.now + g.sampleTimeout) else none := by
      exact Vector.getElem_ofFn _
    have hk : (s.loaded g).channelCfg c = g.channels[c] := rfl
    rw [hd, hrun, hk]
    cases g.channels[c].enabled <;> rfl
  case duties =>
    rw [hrest.loaded_fan]
    exact (FanRecord.reset_opened s.now g.stallFloor).1
  case supervised =>
    rw [hrest.loaded_fan]
    exact ⟨rfl, (FanRecord.reset_opened s.now g.stallFloor).2⟩
  case queue => simp [QueueInStep, hqueue, hlink, Link.reset]
  case faults => simp [FaultsBounded, hlink, Link.reset, Config.faultLimit]
  case ownFrame => simp [OwnFrameOnWire, hlink, Link.reset]
  case life =>
    have hr : (s.loaded g).life.recoveryDeadline = none := congrArg LifeCycle.recoveryDeadline hlife
    have ht : (s.loaded g).life.statusDeadline = none := congrArg LifeCycle.statusDeadline hlife
    have hl : (s.loaded g).life.listenDeadline = some (s.now + g.listenInterval) := rfl
    simp [LifeDeadlinesInStep, hr, ht, hl, hstate]
  case leave =>
    have hf : (s.loaded g).life.leavePending = false := congrArg LifeCycle.leavePending hlife
    simp [LeaveFlagTrue, hf, hqueue, hlink, Link.reset, pendingKind]

theorem NodeInv.loadGood (h : NodeInv s) (hn : s.life.nodeState = .loading) (hline : s.resetLine = false)
    {g : StartImage} (hg : g.good = true) : NodeInv (s.loadGood g) := by
  rw [State.loadGood_loaded]
  exact (h.loaded hn hline hg).recomputed rfl (s.loaded_counted g) (s.loaded_summed g)

/-- An image without a fault gives a good configuration (R173). -/
theorem imageFault_none {l : List Byte} (h : imageFault l = none) : (imageOf l).good = true := by
  simp only [imageFault] at h
  simp only [StartImage.good]
  grind

theorem NodeInv.keepByte (h : NodeInv s) (hd : s.loader.byteDeadline.isSome = true) (b : Byte) :
    NodeInv (s.keepByte b) := by
  obtain ⟨hn, hline⟩ := h.loading_of_reading hd
  obtain ⟨-, hf, hlo, hhi, hlen⟩ := h.loader
  unfold State.keepByte
  dsimp only
  split
  case isTrue hlt =>
    have hl : LoaderInStep { s with loader := { s.loader with byteDeadline := none, bytes := s.loader.bytes ++ [b] } } :=
      ⟨fun _ => hn, hf, hlo, hhi, hlt⟩
    exact (h.withLoader hn hline hl).beginRead hn hline
  case isFalse =>
    unfold State.finishLoad
    split
    next c _ => exact h.loadFault hn hline c
    next himage => exact h.loadGood hn hline (imageFault_none himage)

end

end Sys2Proof.Machine

/-! # Fans and peers under the invariants (01, 05): one fan changed, a window closed, an entry changed -/

namespace Sys2Proof.Machine

section
variable {s : State}

/-! ### What only the own entry's mirrors read -/

/-- A change of the own entry that keeps its demand moves no effective demand (R19). -/
theorem State.updateOwn_effectiveDemand (hi : s.image.isSome = true) {g : PeerEntry → PeerEntry}
    (hd : (g (s.peer s.own)).demand = (s.peer s.own).demand) (a : Station) :
    (s.updateOwn g).effectiveDemand a = s.effectiveDemand a := by
  have ho : ∀ b, (s.updateOwn g).isOwn b = s.isOwn b := fun b => by rw [State.isOwn_of_image (s.updateOwn_image g)]
  by_cases ha : a = s.own
  · subst ha
    have hown : s.isOwn s.own = true := (State.isOwn_iff _).mpr ⟨hi, rfl⟩
    rw [State.effectiveDemand_of_isOwn (s := s) hown, State.effectiveDemand_of_isOwn ((ho _).trans hown),
      State.updateOwn_peer_own, hd]
  · rw [State.effectiveDemand, State.effectiveDemand, ho, State.updateOwn_peer_ne s g ha]

theorem State.updateOwn_sameDrive (hi : s.image.isSome = true) {g : PeerEntry → PeerEntry}
    (hd : (g (s.peer s.own)).demand = (s.peer s.own).demand) : s.SameDrive (s.updateOwn g) where
  image := s.updateOwn_image g
  running := s.updateOwn_running g
  decided := by rw [s.updateOwn_round g]
  latch := s.updateOwn_shutdownLatch g
  failed f := by cases f <;> rfl
  demand := State.updateOwn_effectiveDemand hi hd

theorem State.updateOwn_fan (g : PeerEntry → PeerEntry) (f : FanId) : (s.updateOwn g).fan f = s.fan f := by
  cases f <;> rfl

/-- A change of the own entry that keeps its demand leaves the targets current. -/
theorem TargetsCurrent.updateOwn (h : TargetsCurrent s) (hi : s.image.isSome = true) {g : PeerEntry → PeerEntry}
    (hd : (g (s.peer s.own)).demand = (s.peer s.own).demand) : TargetsCurrent (s.updateOwn g) :=
  h.same (State.updateOwn_sameDrive hi hd) fun f => by rw [State.updateOwn_fan]; exact ⟨rfl, rfl⟩

/-- P does not read the own entry (R17). -/
theorem EligibleCounted.updateOwn (h : EligibleCounted s) (hi : s.image.isSome = true) (g : PeerEntry → PeerEntry) :
    EligibleCounted (s.updateOwn g) := by
  have ho : (s.updateOwn g).isOwn = s.isOwn := State.isOwn_of_image (s.updateOwn_image g)
  have hc : (s.updateOwn g).countsInP = s.countsInP := by
    funext a
    by_cases ha : a = s.own
    · have hown : s.isOwn a = true := (State.isOwn_iff _).mpr ⟨hi, ha⟩
      simp [State.countsInP, ho, hown]
    · rw [State.countsInP, State.countsInP, ho, State.updateOwn_peer_ne s g ha]
  rw [EligibleCounted, State.updateOwn_eligible, State.eligibleNow, hc, State.updateOwn_isActive]
  exact h

/-- The sums read the records alone (R76, R86). -/
theorem SensorsSummed.congr {t : State} (h : SensorsSummed s) (hr : t.running = s.running) (hi : t.image = s.image)
    (hc : t.channels = s.channels) (hd : t.localDemand = s.localDemand) (hv : t.standing = s.standing) :
    SensorsSummed t := by
  intro hrun
  rw [hd, hv, State.localDemandNow_congr hc hi, State.standingNow_congr hc hi]
  exact h (hr ▸ hrun)

/-- The entries of the other stations age as they did while they are not touched. -/
theorem PeersAge.others {t : State} (h : PeersAge s) (hi : t.image = s.image) (him : s.image.isSome = true)
    (hp : ∀ a, a ≠ s.own → t.peer a = s.peer a) : PeersAge t := by
  intro a ha
  rw [State.isOwn_of_image hi] at ha
  have hne : a ≠ s.own := by
    rintro rfl
    rw [(State.isOwn_iff _).mpr ⟨him, rfl⟩] at ha
    exact absurd ha (by decide)
  have hcfg : t.cfg = s.cfg := by simp only [State.cfg, hi]
  rw [hp a hne, hcfg]
  exact h a ha

/-! ### One fan -/

/-- A fan changed in what its target, its reason and the counts do not read. -/
theorem NodeInv.setFan (h : NodeInv s) (hr : s.running = true) (f : FanId) {r : FanRecord}
    (ht : r.target = (s.fan f).target) (hreason : r.reason = (s.fan f).reason)
    (hc : r.condition = (s.fan f).condition) (hfollow : r.Follows s.cfg.stallFloor)
    (hw : r.windowDeadline.isSome = true) (hcounts : r.CountsInStep) : NodeInv (s.setFan f r) := by
  have hfan : ∀ g, (s.setFan f r).fan g = if g = f then r else s.fan g := by
    intro g
    cases f <;> cases g <;> rfl
  have hfailed : ∀ g, (s.setFan f r).fanFailed g = s.fanFailed g := by
    intro g
    simp only [State.fanFailed, hfan]
    split
    case isTrue hg => rw [hc, hg]
    case isFalse => rfl
  have hdrive : s.SameDrive (s.setFan f r) :=
    ⟨s.setFan_image f r, s.setFan_running f r, by rw [s.setFan_round f r], s.setFan_shutdownLatch f r, hfailed,
      fun a => by cases f <;> rfl⟩
  have htargets : TargetsCurrent (s.setFan f r) := by
    refine h.targets.same hdrive fun g => ?_
    rw [hfan]
    split
    case isTrue hg => rw [ht, hreason, hg]; exact ⟨rfl, rfl⟩
    case isFalse => exact ⟨rfl, rfl⟩
  have hduties : DutiesFollow (s.setFan f r) := by
    intro g
    rw [hfan, s.setFan_cfg f r]
    split
    · exact hfollow
    · exact h.duties g
  have hsupervised : FansSupervised (s.setFan f r) := by
    intro g
    rw [hfan, s.setFan_running f r]
    split
    · exact ⟨hw.trans hr.symm, hcounts⟩
    · exact h.supervised g
  have hown : OwnEntryMirrors (s.setFan f r) :=
    h.own.congr (s.setFan_running f r) (s.setFan_image f r) (by cases f <;> rfl) (s.setFan_localDemand f r)
      (s.setFan_channels f r) (s.setFan_shutdownLatch f r) hfailed
  cases f <;>
    exact { h with
      rests := .of_running hr, own := hown, targets := htargets, duties := hduties, supervised := hsupervised }

theorem FansSupervised.running_of_window (h : FansSupervised s) {f : FanId}
    (hd : Due (s.fan f).windowDeadline s.now) : s.running = true := by
  obtain ⟨t, ht, -⟩ := hd
  rw [← (h f).1, ht]
  rfl

theorem NodeInv.running_of_window_armed (h : NodeInv s) {f : FanId} (hw : (s.fan f).windowDeadline.isSome = true) :
    s.running = true :=
  (h.supervised f).1.symm.trans hw

/-- A tach edge is remembered (R99). -/
theorem NodeInv.tachEdge (h : NodeInv s) {f : FanId} (hw : (s.fan f).windowDeadline.isSome = true) :
    NodeInv (s.setFan f { s.fan f with edgeSeen := true }) :=
  h.setFan (h.running_of_window_armed hw) f rfl rfl rfl (h.duties f) hw (h.supervised f).2

/-- The fan forces its duty toward the target (R96). -/
theorem NodeInv.stepDown (h : NodeInv s) (hr : s.running = true) (f : FanId) (step : Nat) :
    NodeInv (s.setFan f ((s.fan f).stepDown s.now step s.cfg.stallFloor)) := by
  have hw := (h.supervised f).1.trans hr
  have hc := (h.supervised f).2
  have hfollow := (h.duties f).stepDown s.now step
  unfold FanRecord.stepDown at hfollow ⊢
  by_cases hzero : min step ((s.fan f).duty.toNat - (s.fan f).target.toNat) = 0
  · simp only [hzero, if_true] at hfollow ⊢
    exact h.setFan hr f rfl rfl rfl hfollow hw hc
  · simp only [hzero, if_false] at hfollow ⊢
    exact h.setFan hr f rfl rfl rfl hfollow hw hc

/-- Outside the states that supervise fans no fall is under way: the duty is at its reset value (R90, R95). -/
theorem NodeInv.running_of_fall (h : NodeInv s) {f : FanId} (hd : Due (s.fan f).fallDeadline s.now) :
    s.running = true := by
  obtain ⟨t, ht, -⟩ := hd
  by_contra hn
  have hf := (h.resting (Bool.not_eq_true _ ▸ hn)).fan f
  simp [hf, FanRecord.reset] at ht

/-! ### A closed window (R98, R103) -/

theorem FanRecord.judgeWindow_reason (r : FanRecord) : r.judgeWindow.reason = r.reason := by
  have h := r.judgeWindow_drive
  simp only [Prod.mk.injEq] at h
  exact h.2.2.2.2.2.2

theorem FanRecord.judgeWindow_target (r : FanRecord) : r.judgeWindow.target = r.target := by
  have h := r.judgeWindow_drive
  simp only [Prod.mk.injEq] at h
  exact h.1

theorem FanRecord.judgeWindow_windowDeadline (r : FanRecord) : r.judgeWindow.windowDeadline = r.windowDeadline := by
  have h := r.judgeWindow_drive
  simp only [Prod.mk.injEq] at h
  exact h.2.2.2.1

theorem FanRecord.Follows.judgeWindow {r : FanRecord} {floor : Nat} (h : r.Follows floor) :
    r.judgeWindow.Follows floor := by
  have hd := r.judgeWindow_drive
  simp only [Prod.mk.injEq] at hd
  obtain ⟨ht, hduty, hfall, -, -, hq, -⟩ := hd
  rw [FanRecord.Follows, ht, hduty, hfall, hq]
  exact h

/-- Fans and own entry changed together: the duties, the supervision and the mirrors are to be shown anew. -/
theorem Sound.withDrive {p : Vector PeerEntry 16} {a b : FanRecord} (h : Sound s) (hr : s.running = true)
    (hown : OwnEntryMirrors { s with peers := p, fanA := a, fanB := b })
    (hp : ∀ c, c ≠ s.own → p[c] = s.peer c) (hd : DutiesFollow { s with peers := p, fanA := a, fanB := b })
    (hs : FansSupervised { s with peers := p, fanA := a, fanB := b }) :
    Sound { s with peers := p, fanA := a, fanB := b } :=
  { h with
    rests := .of_running hr
    own := hown
    ageing := h.ageing.others rfl (h.image_isSome hr) hp
    duties := hd
    supervised := hs }

/-- An own entry whose mirrors are all set anew mirrors again. -/
theorem OwnEntryMirrors.of_entry {t : State} (h : OwnEntryMirrors s) (hr : s.running = true) (hi : t.image = s.image)
    (hp : t.peer s.own = { s.peer s.own with
      demand := t.localDemand
      raised := t.channelsWhere (·.condition == .raised)
      unacked := t.channelsWhere (·.reportState == .unacked)
      faulted := t.channelsWhere (·.faulted)
      fanAFailed := t.fanFailed .a
      fanBFailed := t.fanFailed .b
      critical := t.nodeCritical
      shutdownHeld := t.shutdownLatch }) : OwnEntryMirrors t := by
  intro _
  have hcfg : t.cfg = s.cfg := by simp only [State.cfg, hi]
  have hown : t.own = s.own := by simp only [State.own, hcfg]
  rw [hown, hp, hcfg, h hr]

/-- A recomputation and a change of the own entry that keeps its demand do not meet. -/
theorem State.updateOwn_recompute (hi : s.image.isSome = true) {g : PeerEntry → PeerEntry}
    (hd : (g (s.peer s.own)).demand = (s.peer s.own).demand) :
    (s.updateOwn g).recomputeTargets = s.recomputeTargets.updateOwn g := by
  have hs := State.updateOwn_sameDrive hi hd
  have hf : ∀ f, (s.updateOwn g).retarget f = s.retarget f := by
    intro f
    simp only [State.retarget, hs.targetNow, hs.reasonNow, State.updateOwn_fan, State.updateOwn_now,
      State.updateOwn_cfg]
  show ({ s.updateOwn g with fanA := _, fanB := _ } : State) = _
  rw [hf, hf]
  rfl

theorem State.recompute_mirrorFans (hi : s.image.isSome = true) :
    s.recomputeTargets.mirrorFans = s.mirrorFans.recomputeTargets := by
  have hm : s.recomputeTargets.mirrorFans = s.recomputeTargets.updateOwn fun e =>
      { e with fanAFailed := s.fanFailed .a, fanBFailed := s.fanFailed .b } := by
    simp only [State.mirrorFans, State.recomputeTargets_fanFailed]
  rw [hm, State.mirrorFans, State.updateOwn_recompute hi rfl]

/-- A judged fan and the own entry's flags for it (R101, R102, R103). -/
theorem NodeInv.judged (h : NodeInv s) (hr : s.running = true) (f : FanId) :
    Sound (s.setFan f (s.fan f).judgeWindow).mirrorFans := by
  generalize hu : s.setFan f (s.fan f).judgeWindow = u
  have hfan : ∀ g, u.fan g = if g = f then (s.fan f).judgeWindow else s.fan g := by
    subst hu
    intro g
    cases f <;> cases g <;> rfl
  have hu' : u = { s with fanA := u.fanA, fanB := u.fanB } := by
    subst hu
    cases f <;> rfl
  have hown : OwnEntryMirrors u.mirrorFans := by
    rw [hu']
    refine h.own.of_entry hr rfl ((State.updateOwn_peer_own _ _).trans ?_)
    rw [show State.peer { s with fanA := u.fanA, fanB := u.fanB } = s.peer from rfl, show
      State.own { s with fanA := u.fanA, fanB := u.fanB } = s.own from rfl, h.own hr]
    rfl
  have hduties : ∀ g, (u.fan g).Follows s.cfg.stallFloor := by
    intro g
    rw [hfan]
    split
    · exact (h.duties f).judgeWindow
    · exact h.duties g
  have hsupervised : ∀ g, (u.fan g).windowDeadline.isSome = s.running ∧ (u.fan g).CountsInStep := by
    intro g
    rw [hfan]
    split
    · rw [FanRecord.judgeWindow_windowDeadline]
      exact ⟨(h.supervised f).1, (h.supervised f).2.judgeWindow⟩
    · exact h.supervised g
  have hmirror : u.mirrorFans = { s with peers := u.mirrorFans.peers, fanA := u.fanA, fanB := u.fanB } := by
    rw [hu']
    rfl
  rw [hmirror] at hown ⊢
  refine h.sound.withDrive hr hown (fun c hc => ?_) (fun g => ?_) (fun g => ?_)
  · have hne : c ≠ u.own := by
      rw [hu']
      exact hc
    refine (State.updateOwn_peer_ne u _ hne).trans ?_
    rw [hu']
    rfl
  · cases g
    · exact hduties .a
    · exact hduties .b
  · cases g
    · exact hsupervised .a
    · exact hsupervised .b

theorem NodeInv.closeWindow (h : NodeInv s) (hr : s.running = true) (f : FanId) : NodeInv (s.closeWindow f) := by
  unfold State.closeWindow
  dsimp only
  rw [State.fan_setFan_self]
  split
  case isTrue hc =>
    have hw := (s.fan f).judgeWindow_windowDeadline
    exact h.setFan hr f (FanRecord.judgeWindow_target _) (FanRecord.judgeWindow_reason _) hc
      (h.duties f).judgeWindow (by rw [hw, (h.supervised f).1, hr]) (h.supervised f).2.judgeWindow
  case isFalse =>
    have hi : (s.setFan f (s.fan f).judgeWindow).image.isSome = true := by
      rw [State.setFan_image, h.sound.image_isSome hr]
    rw [State.recompute_mirrorFans hi]
    have hs := h.judged hr f
    refine hs.recomputed ?_ ?_ ?_
    · rw [State.mirrorFans, State.updateOwn_running, State.setFan_running, hr]
    · have he : EligibleCounted (s.setFan f (s.fan f).judgeWindow) := by
        cases f <;> exact h.eligible
      exact he.updateOwn hi _
    · refine h.summed.congr ?_ ?_ ?_ ?_ ?_ <;> cases f <;> rfl

theorem NodeInv.nextWindow (h : NodeInv s) (hr : s.running = true) (f : FanId) : NodeInv (s.nextWindow f) := by
  obtain ⟨-, hcounts⟩ := h.supervised f
  obtain ⟨hle, hfall, -⟩ := h.duties f
  exact h.setFan hr f rfl rfl rfl ⟨hle, hfall, fun hq => of_decide_eq_true hq⟩ rfl hcounts

end

end Sys2Proof.Machine

/-! # Entries of peers under the invariants (01): what frames and ageing do to an entry, and what follows a change of one -/

namespace Sys2Proof.Machine

/-! ### One entry ages (R2) -/

/-- The deadlines of an entry are those its presence state calls for. -/
def PeerEntry.Ages (g : StartImage) (e : PeerEntry) : Prop :=
  e.silenceDeadline = (if e.presence = .present then e.lastHeard.map (· + g.silenceLimit) else none)
    ∧ e.lostDeadline = (if e.presence = .silent then e.lastHeard.map (· + g.lostInterval) else none)
    ∧ (e.lastHeard = none ↔ e.presence = .absent)

theorem peersAge_iff {s : State} : PeersAge s ↔ ∀ a, s.isOwn a = false → (s.peer a).Ages s.cfg := Iff.rfl

section
variable {g : StartImage} {e : PeerEntry}

theorem PeerEntry.ages_refresh (now : Millis) (e : PeerEntry) : (e.refresh now g.silenceLimit).Ages g := by
  simp [PeerEntry.Ages, PeerEntry.refresh]

theorem PeerEntry.ages_depart (now : Millis) (e : PeerEntry) : (e.depart now).Ages g := by
  simp [PeerEntry.Ages, PeerEntry.depart]

/-- An entry that is not ABSENT has been heard. -/
theorem PeerEntry.Ages.heard (h : e.Ages g) (hp : e.presence ≠ .absent) : ∃ t, e.lastHeard = some t := by
  obtain ⟨-, -, hl⟩ := h
  exact Option.ne_none_iff_exists'.mp fun hn => hp (hl.mp hn)

theorem PeerEntry.Ages.fallSilent (h : e.Ages g) (hp : e.presence = .present) (now : Millis) :
    (e.fallSilent now g.lostInterval).Ages g := by
  obtain ⟨t, ht⟩ := h.heard (by simp [hp])
  unfold PeerEntry.fallSilent
  dsimp only
  split <;> simp [PeerEntry.Ages, ht]

theorem PeerEntry.Ages.beLost (h : e.Ages g) (hp : e.presence = .silent) : e.beLost.Ages g := by
  obtain ⟨t, ht⟩ := h.heard (by simp [hp])
  obtain ⟨hs, -, -⟩ := h
  simp [PeerEntry.Ages, PeerEntry.beLost, ht, hs, hp]

/-- Entries that agree in presence, deadlines and last heard age alike. -/
theorem PeerEntry.Ages.congr {e' : PeerEntry} (h : e.Ages g) (hp : e'.presence = e.presence)
    (hh : e'.lastHeard = e.lastHeard) (hs : e'.silenceDeadline = e.silenceDeadline)
    (hl : e'.lostDeadline = e.lostDeadline) : e'.Ages g := by
  rw [PeerEntry.Ages, hp, hh, hs, hl]
  exact h

/-- An ALARM record leaves presence and deadlines alone (R15). -/
theorem PeerEntry.Ages.applyRecord (h : e.Ages g) (r : AlarmRecord) : (e.applyRecord r).Ages g := by
  unfold PeerEntry.applyRecord
  dsimp only
  split <;> exact h

theorem PeerEntry.Ages.applyAlarm (h : e.Ages g) (rs : List AlarmRecord) : (e.applyAlarm rs).Ages g := by
  unfold PeerEntry.applyAlarm
  induction rs generalizing e with
  | nil => exact h
  | cons r rs ih => exact ih (h.applyRecord r)

end

/-! ### An entry changes (R18, R20) -/

section
variable {s : State}

/-- The entry of another station, changed; P, the targets and the sums aside. -/
theorem Sound.setPeer (h : Sound s) (hr : s.running = true) {a : Station} (ha : s.isOwn a = false) {e : PeerEntry}
    (he : e.Ages s.cfg) (n : Nat) : Sound { s.setPeer a e with eligible := n } :=
  have hne : s.own ≠ a := fun ho => h.ne_own hr ha ho.symm
  { h with
    rests := .of_running hr
    own := h.own.congr rfl rfl (State.peer_setPeer_ne s hne e) rfl rfl rfl fun f => by cases f <;> rfl
    ageing := by
      intro b hb
      show PeerEntry.Ages s.cfg ((s.setPeer a e).peer b)
      by_cases hba : b = a
      · rw [hba, State.peer_setPeer_self]
        exact he
      · rw [State.peer_setPeer_ne s hba]
        exact h.ageing b hb }

/-- A deadline's expiry or a frame changes the entry of another station to one that ages (R18, R20). -/
theorem NodeInv.changePeer (h : NodeInv s) (hr : s.running = true) {a : Station} (ha : s.isOwn a = false)
    {f : PeerEntry → PeerEntry} (hf : (f (s.peer a)).Ages s.cfg) : NodeInv (s.changePeer a f) := by
  generalize hm : ({ s.setPeer a (f (s.peer a)) with
    eligible := (s.setPeer a (f (s.peer a))).eligibleNow } : State) = m
  have hmoves : m.RoundMoves (s.changePeer a f) := hm ▸ s.changePeer_moves a f
  have hsound : Sound m := hm ▸ h.sound.setPeer hr ha hf _
  have hrun : m.running = true := by
    rw [← hm]
    exact hr
  have hround : RoundInStep (s.changePeer a f) := h.round.changePeer a f
  have hsummed : SensorsSummed m := by
    rw [← hm]
    exact h.summed.congr rfl rfl rfl rfl rfl
  refine (hsound.moves hmoves hrun hround).nodeInv (s.changePeer_counted a f) ?_ (hsummed.moves hmoves)
  unfold State.changePeer
  dsimp only
  split
  case isFalse => exact State.recomputeTargets_current _
  case isTrue hsame =>
    have hd := (s.setPeer a (f (s.peer a))).deliverEligible_moves
      (((s.setPeer a (f (s.peer a))).peer a).signatureState != (s.peer a).signatureState)
    refine hd.targets (h.targets.same ⟨rfl, rfl, Iff.rfl, rfl, fun g => by cases g <;> rfl, fun b => ?_⟩
      fun g => by cases g <;> exact ⟨rfl, rfl⟩)
    show (s.setPeer a (f (s.peer a))).effectiveDemand b = _
    by_cases hb : b = a
    · rw [hb, ← hsame]
      exact (hd.effectiveDemand a).symm
    · rw [State.effectiveDemand, State.effectiveDemand, State.setPeer_isOwn, State.peer_setPeer_ne s hb]

/-! ### The ageing deadlines (R8, R9) -/

/-- A deadline of an entry runs only in a running node, and not for the own entry. -/
theorem NodeInv.ages_of_heard (h : NodeInv s) {a : Station}
    (hd : (s.peer a).silenceDeadline.isSome = true ∨ (s.peer a).lostDeadline.isSome = true) :
    s.running = true ∧ s.isOwn a = false := by
  have hr : s.running = true := by
    by_contra hn
    have hp := (h.resting (Bool.not_eq_true _ ▸ hn)).peer a
    simp [hp, PeerEntry.reset] at hd
  refine ⟨hr, Bool.eq_false_iff.mpr fun ho => ?_⟩
  obtain ⟨-, rfl⟩ := (State.isOwn_iff a).mp ho
  have hs := h.own hr
  simp [hs] at hd

theorem Due.isSome {d : Deadline} {now : Millis} (h : Due d now) : d.isSome = true := by
  obtain ⟨t, rfl, -⟩ := h
  rfl

theorem NodeInv.fallSilent (h : NodeInv s) {a : Station} (hp : (s.peer a).presence = .present)
    (hd : Due (s.peer a).silenceDeadline s.now) :
    NodeInv (s.changePeer a (PeerEntry.fallSilent s.now s.cfg.lostInterval)) := by
  obtain ⟨hr, ho⟩ := h.ages_of_heard (Or.inl hd.isSome)
  exact h.changePeer hr ho ((peersAge_iff.mp h.ageing a ho).fallSilent hp _)

theorem NodeInv.beLost (h : NodeInv s) {a : Station} (hp : (s.peer a).presence = .silent)
    (hd : Due (s.peer a).lostDeadline s.now) : NodeInv (s.changePeer a PeerEntry.beLost) := by
  obtain ⟨hr, ho⟩ := h.ages_of_heard (Or.inr hd.isSome)
  exact h.changePeer hr ho ((peersAge_iff.mp h.ageing a ho).beLost hp)

/-! ### Frames heard, but for an ACK (R6, R7, R13 to R16, R23) -/

theorem State.changePeer_running (s : State) (a : Station) (f : PeerEntry → PeerEntry) :
    (s.changePeer a f).running = s.running := by
  rw [State.running, s.changePeer_life, State.running]

theorem State.changePeer_isOwn (s : State) (a : Station) (f : PeerEntry → PeerEntry) :
    (s.changePeer a f).isOwn = s.isOwn :=
  State.isOwn_of_image (s.changePeer_moves a f).image

section
variable (h : NodeInv s) (hr : s.running = true) {a : Station} (ha : s.isOwn a = false)
include h hr ha

theorem NodeInv.peerJoins (g : Word16) (d : Byte) : NodeInv (s.peerJoins a g d) :=
  h.changePeer hr ha ((PeerEntry.ages_refresh s.now (s.peer a)).congr rfl rfl rfl rfl)

theorem NodeInv.peerAlarms (rs : List AlarmRecord) : NodeInv (s.peerAlarms a rs) :=
  h.changePeer hr ha ((PeerEntry.ages_refresh s.now (s.peer a)).applyAlarm rs)

theorem NodeInv.peerLeaves : NodeInv (s.peerLeaves a) :=
  h.changePeer hr ha (PeerEntry.ages_depart s.now (s.peer a))

theorem NodeInv.refreshPeer : NodeInv (s.refreshPeer a) :=
  h.changePeer hr ha (PeerEntry.ages_refresh s.now (s.peer a))

theorem NodeInv.peerReports (f : StatusFields) : NodeInv (s.peerReports a f) := by
  have hc : NodeInv (s.changePeer a fun e => (s.refreshed e).applyStatus s.cfg.signature f) :=
    h.changePeer hr ha ((PeerEntry.ages_refresh s.now (s.peer a)).congr rfl rfl rfl rfl)
  unfold State.peerReports
  dsimp only
  split
  case isTrue =>
    exact hc.moves (State.hearStatusRound_moves _ a f) ((s.changePeer_running a _).trans hr)
      (hc.round.hearStatusRound (by rw [s.changePeer_isOwn, ha]) f)
  case isFalse => exact hc

/-- A round frame: the refresh, and then what the Round Controller makes of the frame. -/
theorem NodeInv.viaRound {f : State → State} (hm : ∀ t : State, t.RoundMoves (f t))
    (hf : ∀ t : State, RoundInStep t → t.isOwn a = false → RoundInStep (f t)) : NodeInv (s.viaRound a f) := by
  have hc := h.refreshPeer hr ha
  unfold State.viaRound
  dsimp only
  split
  case isTrue =>
    exact hc.moves (hm _) ((s.changePeer_running a _).trans hr) (hf _ hc.round (by rw [State.refreshPeer, s.changePeer_isOwn, ha]))
  case isFalse => exact hc

end

end

end Sys2Proof.Machine

/-! # Samples and acknowledgements under the invariants (03, 04) -/

namespace Sys2Proof.Machine

/-! ### One watch record -/

section
variable {k : ChannelConfig} {w : WatchRecord}

/-- On an enabled channel a record need not be at its reset values. -/
theorem watchInStep_enabled (he : k.enabled = true) :
    WatchInStep k w ↔
      (w.riseCount < k.persistence ∧ w.fallCount < k.persistence ∧ w.criticalCount < k.persistence)
        ∧ (w.condition = .raised → w.riseCount = 0)
        ∧ (w.condition = .normal → w.fallCount = 0)
        ∧ (w.faulted = true ↔ w.reading = .fault)
        ∧ (k.mode = .level → w.reportState = .clear)
        ∧ (k.mode ≠ .once → w.unreportedRise = false)
        ∧ (k.criticalEnabled = false → w.criticalState = .calm ∧ w.criticalCount = 0) := by
  simp [WatchInStep, he]

section
variable (he : k.enabled = true) (h : WatchInStep k w)
include he h

theorem WatchInStep.sense (p : Sample) : WatchInStep k (w.sense p) := by
  rw [watchInStep_enabled he] at h ⊢
  obtain ⟨hn, hr, hf, -, hm, hu, hc⟩ := h
  exact ⟨hn, hr, hf, by simp, hm, hu, hc⟩

theorem WatchInStep.conditionStep (p : Sample) : WatchInStep k (w.conditionStep k p) := by
  rw [watchInStep_enabled he] at h ⊢
  obtain ⟨⟨hrise, hfall, hcrit⟩, hr, hf, hfault, hm, hu, hc⟩ := h
  have hpos : 0 < k.persistence := Nat.zero_lt_of_lt hrise
  cases hw : w.condition with
  | normal =>
    rw [WatchRecord.conditionStep_of_normal hw]
    have h0 : w.fallCount = 0 := hf hw
    split
    · split
      case isTrue => exact ⟨⟨hpos, hfall, hcrit⟩, fun _ => rfl, nofun, hfault, hm, hu, hc⟩
      case isFalse hlt =>
        exact ⟨⟨Nat.lt_of_not_le hlt, hfall, hcrit⟩, fun hc => absurd (hw.symm.trans hc) (by decide), fun _ => h0,
          hfault, hm, hu, hc⟩
    · exact ⟨⟨hpos, hfall, hcrit⟩, fun _ => rfl, fun _ => h0, hfault, hm, hu, hc⟩
  | raised =>
    rw [WatchRecord.conditionStep_of_raised hw]
    have h0 : w.riseCount = 0 := hr hw
    split
    · split
      case isTrue => exact ⟨⟨hrise, hpos, hcrit⟩, nofun, fun _ => rfl, hfault, hm, hu, hc⟩
      case isFalse hlt =>
        exact ⟨⟨hrise, Nat.lt_of_not_le hlt, hcrit⟩, fun _ => h0, fun hc => absurd (hw.symm.trans hc) (by decide),
          hfault, hm, hu, hc⟩
    · exact ⟨⟨hrise, hpos, hcrit⟩, fun _ => h0, fun _ => rfl, hfault, hm, hu, hc⟩

theorem WatchInStep.reported : WatchInStep k (w.reported k.mode) := by
  rw [watchInStep_enabled he] at h ⊢
  obtain ⟨hn, hr, hf, hfault, hm, hu, hc⟩ := h
  exact ⟨hn, hr, hf, hfault, fun hl => by simp [WatchRecord.reported, hl, hm hl], hu, hc⟩

theorem WatchInStep.afterEvent (e : AlarmEvent) : WatchInStep k (w.afterEvent k.mode e) := by
  unfold WatchRecord.afterEvent
  split
  case isTrue => exact h.reported he
  case isFalse =>
    split
    case isTrue ho =>
      rw [watchInStep_enabled he] at h ⊢
      obtain ⟨hn, hr, hf, hfault, hm, -, hc⟩ := h
      exact ⟨hn, hr, hf, hfault, hm, fun hne => absurd ho.1 hne, hc⟩
    case isFalse => exact h

theorem WatchInStep.takeSample (p : Sample) : WatchInStep k (w.takeSample k p) := by
  have hs := (h.sense he p).conditionStep he p
  unfold WatchRecord.takeSample
  dsimp only
  split
  · exact hs.afterEvent he _
  · exact hs

theorem WatchInStep.criticalStep (p : Sample) : WatchInStep k (w.criticalStep k p) := by
  cases p with
  | fault => rwa [WatchRecord.criticalStep_fault]
  | valid x =>
    cases hk : k.criticalEnabled with
    | false => simpa [WatchRecord.criticalStep, hk] using h
    | true =>
      rw [watchInStep_enabled he] at h ⊢
      obtain ⟨⟨hrise, hfall, hcrit⟩, hr, hf, hfault, hm, hu, -⟩ := h
      have hpos : 0 < k.persistence := Nat.zero_lt_of_lt hrise
      have hoff : ∀ P : Prop, k.criticalEnabled = false → P := fun P hno => by simp [hk] at hno
      cases hw : w.criticalState with
      | calm =>
        rw [WatchRecord.criticalStep_of_calm he hk hw]
        split
        · split
          case isTrue => exact ⟨⟨hrise, hfall, hpos⟩, hr, hf, hfault, hm, hu, hoff _⟩
          case isFalse hlt => exact ⟨⟨hrise, hfall, Nat.lt_of_not_le hlt⟩, hr, hf, hfault, hm, hu, hoff _⟩
        · exact ⟨⟨hrise, hfall, hpos⟩, hr, hf, hfault, hm, hu, hoff _⟩
      | critical =>
        rw [WatchRecord.criticalStep_of_critical he hk hw]
        split
        · split
          case isTrue => exact ⟨⟨hrise, hfall, hpos⟩, hr, hf, hfault, hm, hu, hoff _⟩
          case isFalse hlt => exact ⟨⟨hrise, hfall, Nat.lt_of_not_le hlt⟩, hr, hf, hfault, hm, hu, hoff _⟩
        · exact ⟨⟨hrise, hfall, hpos⟩, hr, hf, hfault, hm, hu, hoff _⟩

theorem WatchInStep.acknowledge : WatchInStep k (w.acknowledge k.mode) := by
  have h' : WatchInStep k { w with
      reportState := .clear, unreportedRise := if k.mode = .once then false else w.unreportedRise } := by
    rw [watchInStep_enabled he] at h ⊢
    obtain ⟨hn, hr, hf, hfault, -, hu, hc⟩ := h
    exact ⟨hn, hr, hf, hfault, fun _ => rfl, fun hne => by simp [hne, hu hne], hc⟩
  unfold WatchRecord.acknowledge
  dsimp only
  split
  · exact h'.reported he
  · exact h'

end

/-- The critical machine leaves what the own entry's sets read. -/
theorem WatchRecord.criticalStep_sets (p : Sample) :
    (w.criticalStep k p).condition = w.condition ∧ (w.criticalStep k p).reportState = w.reportState
      ∧ (w.criticalStep k p).faulted = w.faulted := by
  unfold WatchRecord.criticalStep
  repeat' split
  all_goals exact ⟨rfl, rfl, rfl⟩

/-- An acknowledgement leaves the reading, the condition, the fault and the critical machine alone. -/
theorem WatchRecord.acknowledge_keeps (m : ReportMode) (w : WatchRecord) :
    (w.acknowledge m).reading = w.reading ∧ (w.acknowledge m).condition = w.condition
      ∧ (w.acknowledge m).faulted = w.faulted ∧ (w.acknowledge m).criticalState = w.criticalState := by
  unfold WatchRecord.acknowledge
  dsimp only
  split <;> exact ⟨rfl, rfl, rfl, rfl⟩

end

/-! ### Everything but the sums -/

/-- The invariants but for the local demand and the standing verdict, which a sample brings up to date last (R61). -/
structure Aimed (s : State) : Prop extends Sound s where
  eligible : EligibleCounted s
  targets : TargetsCurrent s

section
variable {s t : State}

theorem NodeInv.aimed (h : NodeInv s) : Aimed s := { h with }

theorem Aimed.nodeInv (h : Aimed s) (hs : SensorsSummed s) : NodeInv s := h.toSound.nodeInv h.eligible h.targets hs

theorem Aimed.moves (h : Aimed s) (hm : s.RoundMoves t) (hr : s.running = true) (hround : RoundInStep t) : Aimed t :=
  { h.toSound.moves hm hr hround with eligible := h.eligible.moves hm, targets := hm.targets h.targets }

/-- Records, sums, queue and own entry changed together; the records and the mirrors are to be shown anew. -/
theorem Sound.withRecords (h : Sound s) (hr : s.running = true) {ch : Vector WatchRecord 8} {d : Byte} {v : Verdict}
    {p : Vector PeerEntry 16} {q : List Pending} (hw : ∀ c : Channel, WatchInStep (s.channelCfg c) ch[c])
    (hp : ∀ a, a ≠ s.own → p[a] = s.peer a) (hq : QueueInStep { s with queue := q })
    (hl : LeaveFlagTrue { s with queue := q })
    (hown : OwnEntryMirrors { s with channels := ch, localDemand := d, standing := v, peers := p, queue := q }) :
    Sound { s with channels := ch, localDemand := d, standing := v, peers := p, queue := q } :=
  { h with
    rests := .of_running hr
    own := hown
    ageing := h.ageing.others rfl (h.image_isSome hr) hp
    watches := fun _ => hw
    queue := hq
    leave := hl }

/-- The same, where the own entry keeps its demand, so that no target and no count moves. -/
theorem Aimed.withRecords (h : Aimed s) (hr : s.running = true) {ch : Vector WatchRecord 8} {v : Verdict}
    {q : List Pending} (hw : ∀ c : Channel, WatchInStep (s.channelCfg c) ch[c])
    (hq : QueueInStep { s with queue := q }) (hl : LeaveFlagTrue { s with queue := q })
    {g : PeerEntry → PeerEntry} (hg : (g (s.peer s.own)).demand = (s.peer s.own).demand)
    (hown : OwnEntryMirrors (({ s with channels := ch, standing := v, queue := q } : State).updateOwn g)) :
    Aimed (({ s with channels := ch, standing := v, queue := q } : State).updateOwn g) := by
  have hi := h.toSound.image_isSome hr
  have hs : Sound (({ s with channels := ch, standing := v, queue := q } : State).updateOwn g) :=
    h.toSound.withRecords (d := s.localDemand) hr hw (fun a ha => State.updateOwn_peer_ne s g ha) hq hl hown
  have he : EligibleCounted ({ s with channels := ch, standing := v, queue := q } : State) := h.eligible
  have ht : TargetsCurrent ({ s with channels := ch, standing := v, queue := q } : State) :=
    h.targets.same ⟨rfl, rfl, Iff.rfl, rfl, fun f => by cases f <;> rfl, fun _ => rfl⟩
      fun f => by cases f <;> exact ⟨rfl, rfl⟩
  exact { hs with eligible := he.updateOwn hi g, targets := ht.updateOwn hi hg }

/-! ### The parts of a sample (R61) -/

/-- One record of the eight set anew. -/
theorem WatchesInStep.set (h : WatchesInStep s) (hr : s.running = true) (c : Channel) {w : WatchRecord}
    (hw : WatchInStep (s.channelCfg c) w) :
    ∀ d : Channel, WatchInStep (s.channelCfg d) (s.channels.set c w)[d] := by
  intro d
  by_cases hd : d = c
  · subst hd
    rw [show (s.channels.set d w)[d] = w from (s.watch_setWatch_self d w)]
    exact hw
  · rw [show (s.channels.set c w)[d] = s.watch d from (s.watch_setWatch_ne hd w)]
    exact h hr d

/-- Records that leave node critical alone, their reports queued, and the own entry's sets following. -/
theorem Aimed.recorded (h : Aimed s) (hr : s.running = true) {ch : Vector WatchRecord 8} {q : List Pending}
    (hw : ∀ c : Channel, WatchInStep (s.channelCfg c) ch[c]) (hq : QueueInStep { s with queue := q })
    (hl : LeaveFlagTrue { s with queue := q })
    (hc : State.nodeCritical { s with channels := ch } = s.nodeCritical) :
    Aimed (State.mirrorSets { s with channels := ch, queue := q }) := by
  refine h.withRecords hr hw hq hl rfl (h.own.of_entry hr rfl ((State.updateOwn_peer_own _ _).trans ?_))
  have hcrit : ∀ g, State.nodeCritical (State.updateOwn { s with channels := ch, queue := q } g) = s.nodeCritical :=
    fun g => (State.nodeCritical_congr rfl).trans hc
  rw [hcrit, show State.peer { s with channels := ch, queue := q } = s.peer from rfl, show
    State.own { s with channels := ch, queue := q } = s.own from rfl, h.own hr]
  rfl

theorem State.setWatch_channelsWhere {c : Channel} {w : WatchRecord} {p : WatchRecord → Bool}
    (hp : p w = p (s.watch c)) : (s.setWatch c w).channelsWhere p = s.channelsWhere p := by
  unfold State.channelsWhere
  congr 1
  funext d
  by_cases hd : d = c
  · rw [hd, State.watch_setWatch_self, hp]
  · rw [State.watch_setWatch_ne s hd]

theorem State.updateOwn_same (s : State) : s.updateOwn (fun e => e) = s := by
  show ({ s with peers := s.peers.set s.own s.peers[s.own] } : State) = s
  rw [Fin.getElem_fin, Vector.set_getElem_self]

/-- Parts 1 to 3 of a sample. -/
theorem Aimed.observe (h : Aimed s) (hr : s.running = true) {c : Channel} (he : (s.channelCfg c).enabled = true)
    (p : Sample) : Aimed (s.observe c p) := by
  have hcrit : (s.setWatch c ((s.watch c).takeSample (s.channelCfg c) p)).nodeCritical = s.nodeCritical := by
    rw [← s.observe_nodeCritical c p]
    exact (State.nodeCritical_congr (congrArg State.channels (s.observe_moves c p).frame)).symm
  have hw := h.watches.set hr c ((h.watches hr c).takeSample he p)
  unfold State.observe
  generalize (s.watch c).takeSample (s.channelCfg c) p = w at hcrit hw ⊢
  generalize sampleRecords c (s.channelCfg c) p (s.watch c) = rs
  have hq := QueueInStep.offerRecords (s := s.setWatch c w) h.queue rs
  have hl := LeaveFlagTrue.offerRecords (s := s.setWatch c w) h.leave rs
  rw [State.offerRecords_frame] at hq hl ⊢
  exact h.recorded hr hw hq hl hcrit

/-- Part 4 of a sample: where node critical begins or ends, its flag and the round follow (R83). -/
theorem Aimed.judgeCritical (h : Aimed s) (hr : s.running = true) {c : Channel}
    (he : (s.channelCfg c).enabled = true) (p : Sample) : Aimed (s.judgeCritical c p) := by
  have hw := h.watches.set hr c ((h.watches hr c).criticalStep he p)
  obtain ⟨hc, hrep, hf⟩ := (s.watch c).criticalStep_sets (k := s.channelCfg c) p
  unfold State.judgeCritical
  generalize (s.watch c).criticalStep (s.channelCfg c) p = w at hw hc hrep hf ⊢
  have hraised : (s.setWatch c w).channelsWhere (·.condition == .raised) = s.channelsWhere (·.condition == .raised) :=
    State.setWatch_channelsWhere (by rw [hc])
  have hunacked : (s.setWatch c w).channelsWhere (·.reportState == .unacked)
      = s.channelsWhere (·.reportState == .unacked) := State.setWatch_channelsWhere (by rw [hrep])
  have hfaulted : (s.setWatch c w).channelsWhere (·.faulted) = s.channelsWhere (·.faulted) :=
    State.setWatch_channelsWhere hf
  have hentry : ∀ g : PeerEntry → PeerEntry,
      (g (s.peer s.own) = { s.peer s.own with critical := (s.setWatch c w).nodeCritical }) →
        Aimed ((s.setWatch c w).updateOwn g) := by
    intro g hg
    refine h.withRecords (v := s.standing) hr hw h.queue h.leave (by rw [hg])
      (h.own.of_entry hr rfl ((State.updateOwn_peer_own _ _).trans (hg.trans ?_)))
    rw [h.own hr, ← hraised, ← hunacked, ← hfaulted]
    rfl
  unfold State.criticalChanged
  split
  case isTrue hsame =>
    have hu := hentry (fun e => e) (by rw [hsame, h.own hr])
    rwa [State.updateOwn_same] at hu
  case isFalse =>
    have hm : Aimed (s.setWatch c w).mirrorCritical := hentry _ rfl
    have hround : RoundInStep (s.setWatch c w).mirrorCritical := hm.round
    split
    · exact hm.moves (State.propose_moves _) hr hround.propose
    · exact hm.moves (State.withdrawOwn_moves _) hr hround.withdrawOwn

/-- Part 5 of a sample: the local demand (R76). -/
theorem Aimed.updateDemand (h : Aimed s) (hr : s.running = true) : Aimed s.updateDemand := by
  have hi := h.toSound.image_isSome hr
  have hown : s.isOwn s.own = true := h.toSound.isOwn_own hr
  unfold State.updateDemand
  dsimp only
  generalize s.localDemandNow = d
  split
  case isTrue => exact h
  case isFalse =>
    let u : State := ({ s with localDemand := d } : State).updateOwn fun e => { e with demand := d }
    show Aimed (if u.effectiveDemand s.own = s.effectiveDemand s.own then u else u.recomputeTargets)
    have hmirror : OwnEntryMirrors u := by
      refine h.own.of_entry hr rfl ((State.updateOwn_peer_own _ _).trans ?_)
      show ({ s.peer s.own with demand := d } : PeerEntry) = _
      rw [h.own hr]
      rfl
    have hpeer : ∀ a, a ≠ s.own → u.peer a = s.peer a := fun a ha =>
      State.updateOwn_peer_ne ({ s with localDemand := d } : State) _ ha
    have hu : Sound u := h.toSound.withRecords (v := s.standing) hr (h.watches hr) hpeer h.queue h.leave hmirror
    have he : EligibleCounted u :=
      EligibleCounted.updateOwn (s := { s with localDemand := d }) h.eligible hi _
    split
    case isTrue hsame =>
      have hdemand : ∀ a, u.effectiveDemand a = s.effectiveDemand a := by
        intro a
        by_cases ha : a = s.own
        · rw [ha, hsame]
        · have ho : u.isOwn a = s.isOwn a := rfl
          rw [State.effectiveDemand, State.effectiveDemand, ho, hpeer a ha]
      have ht : TargetsCurrent u :=
        h.targets.same ⟨rfl, rfl, Iff.rfl, rfl, fun f => by cases f <;> rfl, hdemand⟩
          fun f => by cases f <;> exact ⟨rfl, rfl⟩
      exact { hu with eligible := he, targets := ht }
    case isFalse =>
      have hm := u.recomputeTargets_moves
      exact { hu.moves hm hr hu.round.recomputeTargets with
        eligible := he.moves hm, targets := u.recomputeTargets_current }

/-- Part 6 of a sample, and the last of an acknowledgement: the standing verdict (R86). -/
theorem Aimed.updateStanding (h : Aimed s) (hr : s.running = true) : Aimed s.updateStanding := by
  have hm := s.updateStanding_moves
  have h' : Aimed { s with standing := s.standingNow } := { h with rests := .of_running hr }
  refine h'.moves hm hr ?_
  unfold State.updateStanding
  split
  · exact h.round
  · exact RoundInStep.verdictChanged (s := { s with standing := s.standingNow }) h.round _

theorem State.SampleMoves.running {c : Channel} {w : WatchRecord} (h : s.SampleMoves t c w) :
    t.running = s.running := by
  have hf := h.frame
  rw [hf]
  rfl

theorem State.SampleMoves.channelCfg {c : Channel} {w : WatchRecord} (h : s.SampleMoves t c w) (d : Channel) :
    t.channelCfg d = s.channelCfg d := by
  rw [State.channelCfg, h.cfg, State.channelCfg]

/-- A sample of an enabled channel, handled whole (R61). -/
theorem NodeInv.takeSample (h : NodeInv s) (hr : s.running = true) {c : Channel}
    (he : (s.channelCfg c).enabled = true) (p : Sample) : NodeInv (s.takeSample c p) := by
  have h₁ := s.observe_moves c p
  have h₂ := (s.observe c p).judgeCritical_moves c p
  have h₃ := ((s.observe c p).judgeCritical c p).updateDemand_moves c
  have hr₁ := h₁.running.trans hr
  have hr₂ := h₂.running.trans hr₁
  have ha := ((h.aimed.observe hr he p).judgeCritical hr₁ (by rw [h₁.channelCfg, he]) p).updateDemand hr₂
  exact (ha.updateStanding (h₃.running.trans hr₂)).nodeInv fun _ => s.takeSample_summed c p

/-- A sample deadline armed again, on a channel whose deadline is armed (R58, R59). -/
theorem NodeInv.armSample (h : NodeInv s) (hr : s.running = true) {c : Channel}
    (he : (s.channelCfg c).enabled = true) : NodeInv (s.armSample c) :=
  { h with
    rests := .of_running hr
    samples := by
      intro d
      have hd := h.samples d
      have ha : (s.armSample c).running = true := hr
      rw [ha]
      show ((s.sampleDeadlines.set c _)[d]).isSome = (true && (s.channelCfg d).enabled)
      by_cases hcd : d = c
      · subst hcd
        simp [he]
      · rw [show ∀ x, (s.sampleDeadlines.set c x)[d] = s.sampleDeadlines[d] from fun x =>
          Vector.getElem_set_ne _ _ fun hv => hcd (Fin.ext hv.symm), hd, hr] }

/-- A sample deadline is armed for enabled channels of a running node alone (R58). -/
theorem NodeInv.enabled_of_due (h : NodeInv s) {c : Channel} (hd : Due s.sampleDeadlines[c] s.now) :
    s.running = true ∧ (s.channelCfg c).enabled = true := by
  have hs := h.samples c
  rw [hd.isSome] at hs
  simpa using hs.symm

/-! ### Acknowledgements (R71) -/

theorem channelDemand_of_reading (k : ChannelConfig) {v w : WatchRecord} (h : v.reading = w.reading) :
    channelDemand k v = channelDemand k w := by
  unfold channelDemand
  rw [h]

/-- An acknowledgement leaves the sum of the demands alone: no reading changes. -/
theorem State.localDemandNow_of_readings (hi : t.image = s.image)
    (hw : ∀ c, (t.watch c).reading = (s.watch c).reading) : t.localDemandNow = s.localDemandNow := by
  have hd : ∀ c, channelDemand (t.channelCfg c) (t.watch c) = channelDemand (s.channelCfg c) (s.watch c) := by
    intro c
    rw [channelDemand_of_reading _ (hw c), State.channelCfg, State.channelCfg, State.cfg, State.cfg, hi]
  simp only [State.localDemandNow, hd]

theorem State.acknowledged_keeps (set : ChannelSet) (c : Channel) :
    (s.acknowledged set c).reading = (s.watch c).reading
      ∧ (s.acknowledged set c).criticalState = (s.watch c).criticalState := by
  unfold State.acknowledged
  split
  · obtain ⟨hr, -, -, hc⟩ := (s.watch c).acknowledge_keeps (s.channelCfg c).mode
    exact ⟨hr, hc⟩
  · exact ⟨rfl, rfl⟩

theorem NodeInv.acknowledge (h : NodeInv s) (hr : s.running = true) (set : ChannelSet) :
    NodeInv (s.acknowledge set) := by
  generalize hu : (List.finRange 8).foldl (State.ackChannel set) s = u
  have hframe : u = { s with channels := u.channels, queue := u.queue } := hu ▸ s.ackFold_frame set _
  have hwatch : ∀ c, u.watch c = s.acknowledged set c := by
    intro c
    rw [← hu, s.ackFold_watch set _ (List.nodup_finRange 8), if_pos (List.mem_finRange c)]
  have hqueue := s.ackFold_queue set _ (List.nodup_finRange 8)
  rw [hu] at hqueue
  have hq : QueueInStep { s with queue := u.queue } := by
    rw [hqueue, ← State.offerRecords_frame]
    exact h.queue.offerRecords _
  have hl : LeaveFlagTrue { s with queue := u.queue } := by
    rw [hqueue, ← State.offerRecords_frame]
    exact h.leave.offerRecords _
  have hw : ∀ c : Channel, WatchInStep (s.channelCfg c) u.channels[c] := by
    intro c
    rw [show u.channels[c] = _ from hwatch c]
    unfold State.acknowledged
    split
    case isTrue ha => exact (h.watches hr c).acknowledge ha.2.1
    case isFalse => exact h.watches hr c
  have hc : State.nodeCritical { s with channels := u.channels } = s.nodeCritical := by
    unfold State.nodeCritical
    congr 1
    funext c
    rw [State.isCritical, State.isCritical, show State.watch { s with channels := u.channels } c = _ from hwatch c,
      (s.acknowledged_keeps set c).2]
  have ha := h.aimed.recorded hr hw hq hl hc
  rw [← hframe] at ha
  have hrun : u.mirrorSets.running = true := by
    rw [hframe]
    exact hr
  have hdone : s.acknowledge set = u.mirrorSets.updateStanding := by rw [State.acknowledge, hu]
  obtain ⟨hspec, hspecw, -, hstanding, -⟩ := s.acknowledge_spec set
  refine (hdone ▸ ha.updateStanding hrun).nodeInv fun _ => ⟨?_, hstanding⟩
  have hdemand : (s.acknowledge set).localDemand = s.localDemand := by rw [hspec]
  have himage : (s.acknowledge set).image = s.image := by rw [hspec]
  have hreading : ∀ c, ((s.acknowledge set).watch c).reading = (s.watch c).reading := by
    intro c
    rw [hspecw, (s.acknowledged_keeps set c).1]
  rw [hdemand, State.localDemandNow_of_readings himage hreading]
  exact (h.summed hr).1

theorem NodeInv.peerAcks (h : NodeInv s) (hr : s.running = true) {a : Station} (ha : s.isOwn a = false)
    (ps : List AckPair) : NodeInv (s.peerAcks a ps) := by
  have hp := h.refreshPeer hr ha
  unfold State.peerAcks
  dsimp only
  split
  · exact hp.acknowledge ((s.changePeer_running a _).trans hr) _
  · exact hp

end

end Sys2Proof.Machine

/-! # The link and the life of the node under the invariants (07, 08, 09) -/

namespace Sys2Proof.Machine

section
variable {s t : State}

/-! ### Life, link and queue changed together -/

/-- A running node is not held by the RESET line. -/
theorem Sound.not_held (h : Sound s) (hr : s.running = true) : s.resetLine = false := by
  refine Bool.eq_false_iff.mpr fun hl => ?_
  obtain ⟨hn, -, -⟩ := h.held hl
  simp [State.running, hn, NodeState.runs] at hr

/-- A running node reads no image and holds no fault code (R171, R177). -/
theorem Sound.loader_idle (h : Sound s) (hr : s.running = true) :
    s.loader.byteDeadline = none ∧ s.loader.faultCode = none := by
  obtain ⟨hd, hf, -⟩ := h.loader
  refine ⟨Option.not_isSome_iff_eq_none.mp fun hs => ?_, Option.not_isSome_iff_eq_none.mp fun hs => ?_⟩
  · simp [State.running, hd hs, NodeState.runs] at hr
  · simp [State.running, hf.mp hs, NodeState.runs] at hr

/-- A running node passes to another running state: what the queue, the link and the node's deadlines hold is to be shown
anew. -/
theorem Sound.withLife {L : LifeCycle} {l : Link} {q : List Pending} {n : Nat} (h : Sound s) (hr : s.running = true)
    (hL : L.nodeState.runs = true)
    (hq : QueueInStep { s with life := L, link := l, queue := q, eligible := n })
    (hf : FaultsBounded { s with life := L, link := l, queue := q, eligible := n })
    (hw : l.ownOnWire = true → l.receiver = .receiving)
    (hd : LifeDeadlinesInStep { s with life := L, link := l, queue := q, eligible := n })
    (hl : LeaveFlagTrue { s with life := L, link := l, queue := q, eligible := n }) :
    Sound { s with life := L, link := l, queue := q, eligible := n } :=
  have hrun : s.running = L.nodeState.runs := hr.trans hL.symm
  { h with
    rests := .of_running hL
    held := fun hheld => absurd ((h.not_held hr).symm.trans hheld) (by decide)
    configured := fun _ => h.configured hr
    loader := by
      obtain ⟨-, -, hattempt⟩ := h.loader
      obtain ⟨hnone, hcode⟩ := h.loader_idle hr
      refine ⟨fun hs => ?_, ⟨fun hs => ?_, fun hs => ?_⟩, hattempt⟩
      · exact absurd hs (by simp [hnone])
      · exact absurd hs (by simp [hcode])
      · have hs' : L.nodeState = .configFault := hs
        simp [hs', NodeState.runs] at hL
    own := fun _ => h.own hr
    watches := fun _ => h.watches hr
    samples := fun c => by
      have hc := h.samples c
      rwa [hrun] at hc
    supervised := fun f => by
      obtain ⟨hwin, hc⟩ := h.supervised f
      exact ⟨hwin.trans hrun, hc⟩
    queue := hq
    faults := hf
    own_frame := hw
    life := hd
    leave := hl }

/-- The sums and P across such a passage. -/
theorem SensorsSummed.withLife {L : LifeCycle} {l : Link} {q : List Pending} {n : Nat} (h : SensorsSummed s)
    (hr : s.running = true) : SensorsSummed { s with life := L, link := l, queue := q, eligible := n } :=
  fun _ => h hr

/-- P counts this node exactly while it is ACTIVE, so a passage that neither enters nor leaves ACTIVE keeps it. -/
theorem EligibleCounted.withLife {L : LifeCycle} {l : Link} {q : List Pending} (h : EligibleCounted s)
    (ha : (L.nodeState == .active) = s.isActive) : EligibleCounted { s with life := L, link := l, queue := q } := by
  unfold EligibleCounted State.eligibleNow State.isActive
  rw [ha]
  exact h

/-! ### Passages off the link (R136, R152, R165) -/

theorem LifeDeadlinesInStep.left {n : NodeState} (hn : n ≠ .active) (hn' : n ≠ .listening) (d : Millis) :
    LifeDeadlinesInStep { s with life :=
      { nodeState := n
        listenDeadline := none
        recoveryDeadline := if n = NodeState.linkOff then some d else none
        statusDeadline := none
        leavePending := false } } := by
  refine ⟨by simp [hn'], ?_, by simp [hn]⟩
  by_cases hl : n = .linkOff <;> simp [hl]

/-- A passage to LINK_OFF, CONFLICT or QUIET, whatever the link was left with. -/
theorem NodeInv.leaveFor (h : NodeInv s) (hr : s.running = true) (l : Link) (hfaults : l.faults ≤ Config.faultLimit)
    (hw : l.ownOnWire = true → l.receiver = .receiving) {n : NodeState}
    (hn : n = .linkOff ∨ n = .conflict ∨ n = .quiet) : NodeInv (({ s with link := l } : State).leaveFor n) := by
  have hactive : n ≠ .active := by rintro rfl; simp at hn
  have hlisten : n ≠ .listening := by rintro rfl; simp at hn
  have hruns : n.runs = true := by obtain rfl | rfl | rfl := hn <;> rfl
  have hjoin : n ≠ .joining := by rintro rfl; simp at hn
  unfold State.leaveFor
  rw [State.deliverEligible_notActive _ _ (by simp [State.isActive, hactive])]
  refine Sound.recomputed ?_ hruns (State.counted _) (h.summed.withLife hr)
  exact h.sound.withLife hr hruns ⟨List.nodup_nil, by simp, by simp, fun hj => absurd hj hjoin⟩
    ⟨hfaults, fun _ => hn⟩ hw (LifeDeadlinesInStep.left (s := s) hactive hlisten _)
    (by simp [LeaveFlagTrue, pendingKind])

/-! ### The frame in flight -/

theorem withStatus_kind {σ τ : Type} (p : τ) (f : FrameOf σ) : (f.withStatus p).kind = f.kind := by cases f <;> rfl

theorem frame_eq_leave {σ : Type} (f : FrameOf σ) : f = .leave ↔ f.kind = .leave := by
  cases f <;> simp [FrameOf.kind]

theorem pendingKind_cons (q : List Pending) (f : Pending) (k : FrameKind) :
    pendingKind (f :: q) k = (f.kind == k || pendingKind q k) := rfl

theorem pendingKind_withoutKind_ne (q : List Pending) {j k : FrameKind} (h : k ≠ j) :
    pendingKind (withoutKind q j) k = pendingKind q k := by
  unfold pendingKind withoutKind
  rw [List.any_filter]
  congr 1
  funext f
  by_cases hf : f.kind = k
  · simp [hf, h]
  · simp [hf]

theorem pendingKind_returnUnlessPending (q : List Pending) (f : Pending) (k : FrameKind) :
    pendingKind (returnUnlessPending q f) k = (pendingKind q k || f.kind == k) := by
  unfold returnUnlessPending
  split
  case isTrue h =>
    by_cases hk : f.kind = k
    · subst hk
      simp [h]
    · simp [hk]
  case isFalse => rw [pendingKind_cons, Bool.or_comm]

/-- A LEAVE is pending after a return exactly if it was, or if it is what returns (R147). -/
theorem pendingKind_returned_leave (q : List Pending) (f : Frame) (cur : Bool) :
    pendingKind (returned q f cur) .leave = true ↔ pendingKind q .leave = true ∨ f = .leave := by
  have hlist : ∀ (g : Pending) (k : FrameKind), g.kind ≠ .leave → k ≠ .leave →
      pendingKind (g :: withoutKind q k) .leave = pendingKind q .leave := by
    intro g k hg hk
    rw [pendingKind_cons, pendingKind_withoutKind_ne q hk.symm, beq_eq_false_iff_ne.mpr hg, Bool.false_or]
  have hreturn := fun f => pendingKind_returnUnlessPending q f .leave
  cases f with
  | alarm rs =>
    rw [returned, hlist _ _ (by simp [FrameOf.kind]) (by decide)]
    simp
  | ack ps =>
    rw [returned, hlist _ _ (by simp [FrameOf.kind]) (by decide)]
    simp
  | propose | vote | withdraw =>
    simp only [returned]
    split <;> simp [hreturn, FrameOf.asPending, FrameOf.withStatus, FrameOf.kind]
  | status | commit | join | leave =>
    simp [returned, hreturn, FrameOf.asPending, FrameOf.withStatus, FrameOf.kind]

/-- A frame in flight is one its node state admits: JOIN in JOINING, any other in ACTIVE (R143). -/
theorem NodeInv.flight (h : NodeInv s) {f : Frame} (hf : s.link.inFlight = some f) :
    s.running = true ∧ ((s.life.nodeState = .joining ∧ f.kind = .join)
      ∨ (s.life.nodeState = .active ∧ f.kind ≠ .join)) := by
  obtain ⟨-, -, hadmits, -⟩ := h.queue
  have ha := hadmits f hf
  unfold State.running
  revert ha
  cases s.life.nodeState <;> simp [NodeState.admits, NodeState.runs]

/-- The node's life as it was, with another link and queue. -/
theorem NodeInv.withFlight (h : NodeInv s) (hr : s.running = true) {l : Link} {q : List Pending}
    (hq : QueueInStep { s with link := l, queue := q }) (hf : FaultsBounded { s with link := l, queue := q })
    (hw : l.ownOnWire = true → l.receiver = .receiving) (hl : LeaveFlagTrue { s with link := l, queue := q }) :
    NodeInv { s with link := l, queue := q } :=
  { h with
    rests := .of_running hr
    queue := hq
    faults := hf
    own_frame := hw
    leave := hl }

/-- The frame in flight returned to the queue (R131, R133, R147). -/
theorem NodeInv.returnFlight (h : NodeInv s) {f : Frame} (hf : s.link.inFlight = some f) (cur : Bool) {l : Link}
    (hnone : l.inFlight = none) (hw : l.ownOnWire = true → l.receiver = .receiving)
    (hfaults : l.faults < Config.faultLimit ∨ l.faults = s.link.faults) :
    NodeInv { s with link := l, queue := returned s.queue f cur } := by
  obtain ⟨hr, -⟩ := h.flight hf
  obtain ⟨-, -, hadmits, -⟩ := h.queue
  obtain ⟨hn, hq⟩ := h.queue.ok.returned cur (hadmits f hf)
  refine h.withFlight hr ⟨hn, hq, by simp [hnone], fun _ => Or.inr hnone⟩ ?_ hw ?_
  · obtain hlt | heq := hfaults
    · exact ⟨hlt.le, fun h8 => absurd h8 hlt.ne⟩
    · have hb := h.faults
      rwa [FaultsBounded, ← heq] at hb
  · have hl := h.leave
    unfold LeaveFlagTrue at hl ⊢
    rw [hl, hf, hnone, pendingKind_returned_leave]
    simp

theorem NodeInv.loseArbitration (h : NodeInv s) {f : Frame} (hf : s.link.inFlight = some f) :
    NodeInv (s.loseArbitration f) :=
  h.returnFlight hf (s.isCurrent f) (l := { s.link with inFlight := none, ownOnWire := false }) rfl nofun (Or.inr rfl)

/-- A transmit fault, below the limit and at it (R133, R163). -/
theorem NodeInv.faultOn (h : NodeInv s) {f : Frame} (hf : s.link.inFlight = some f) : NodeInv (s.faultOn f) := by
  obtain ⟨hr, hstate⟩ := h.flight hf
  have hle : min (s.link.faults + 1) Config.faultLimit ≤ Config.faultLimit := Nat.min_le_right _ _
  unfold State.faultOn State.countFault
  dsimp only
  split
  case isTrue hlt =>
    exact h.returnFlight hf _ (l := { s.link with faults := min (s.link.faults + 1) Config.faultLimit, inFlight := none })
      rfl h.own_frame (Or.inl hlt)
  case isFalse =>
    have hleave := fun n hn => h.leaveFor hr { s.link with
      faults := min (s.link.faults + 1) Config.faultLimit, inFlight := none } hle h.own_frame (n := n) hn
    unfold State.faultLimit
    obtain ⟨hj, -⟩ | ⟨ha, -⟩ := hstate
    · simp only [hj]
      exact hleave _ (Or.inl rfl)
    · simp only [ha]
      split
      · exact hleave _ (Or.inr (Or.inr rfl))
      · exact hleave _ (Or.inl rfl)

/-- The head of the queue goes into flight (R146). -/
theorem NodeInv.beginFrame (h : NodeInv s) (hr : s.running = true) {f : Pending} (hf : headEntry s.queue = some f)
    (hflight : s.link.inFlight = none) (wire : List Bool) :
    NodeInv (s.beginFrame wire f) := by
  have hmem := headEntry_mem hf
  obtain ⟨hn, hq, -, -⟩ := h.queue
  obtain ⟨hn', hq'⟩ := h.queue.ok.filter fun g => g.kind != f.kind
  have hl := h.leave
  refine h.withFlight hr ⟨hn', hq', ?_, fun hj => Or.inl ?_⟩ h.faults ?_ ?_
  · rintro g hg
    obtain rfl : f.withStatus s.statusSnapshot = g := Option.some.inj hg
    rw [withStatus_kind]
    exact hq f hmem
  · have hjoins : ∀ g ∈ s.queue, g.kind = .join := by
      intro g hg
      have ha := hq g hg
      rw [show s.life.nodeState = .joining from hj] at ha
      exact eq_of_beq ha
    refine List.filter_eq_nil_iff.mpr fun g hg => ?_
    simp [hjoins g hg, hjoins f hmem]
  · intro hw
    dsimp only at hw ⊢
    rw [if_pos hw]
  · unfold LeaveFlagTrue at hl ⊢
    refine hl.trans ?_
    simp only [hflight, frame_eq_leave, withStatus_kind, Option.some.injEq, reduceCtorEq, or_false]
    by_cases hk : f.kind = .leave
    · simp only [hk, or_true, iff_true]
      exact List.any_eq_true.mpr ⟨f, hmem, by simp [hk]⟩
    · rw [pendingKind_withoutKind_ne _ (Ne.symm hk)]
      simp [hk]

/-! ### JOINING and ACTIVE (R155, R159, R161, R162, R164) -/

/-- The flag is clear where nothing is pending and nothing in flight. -/
theorem LeaveFlagTrue.clear (h : LeaveFlagTrue s) (hq : s.queue = []) (hf : s.link.inFlight = none) :
    s.life.leavePending = false := by
  rw [LeaveFlagTrue, hq, hf] at h
  simpa [pendingKind] using h

/-- LISTENING ends with a JOIN pending (R155, R159). -/
theorem NodeInv.startJoining (h : NodeInv s) (hn : s.life.nodeState = .listening) : NodeInv s.startJoining := by
  have hr : s.running = true := by simp [State.running, hn, NodeState.runs]
  obtain ⟨hq, hf⟩ := h.queue.empty (by simp [hn, NodeState.admits])
  obtain ⟨-, hrec, hstat⟩ := h.life
  unfold State.startJoining
  rw [State.offer_frame]
  refine Sound.recomputed ?_ rfl (h.eligible.withLife (by simp [State.isActive, hn])) (h.summed.withLife hr)
  have hoffer : (State.offer (s.joinFrame) { s with
      life := { s.life with nodeState := .joining, listenDeadline := none } }).queue = [s.joinFrame] := by
    rw [State.offer_queue]
    show enqueue s.queue s.joinFrame = _
    rw [hq]
    rfl
  rw [hoffer]
  refine h.sound.withLife hr rfl ?_ ⟨h.faults.1, fun h8 => ?_⟩ h.own_frame ?_ ?_
  · refine ⟨by simp, ?_, by simp [hf], fun _ => Or.inr hf⟩
    simp [State.joinFrame, FrameOf.kind, NodeState.admits]
  · have hstate := h.faults.2 h8
    simp [hn] at hstate
  · have hrec' : s.life.recoveryDeadline = none := by simpa [hn] using hrec
    have hstat' : s.life.statusDeadline = none := by simpa [hn] using hstat
    simp [LifeDeadlinesInStep, hrec', hstat']
  · simp [LeaveFlagTrue, h.leave.clear hq hf, hf, pendingKind, State.joinFrame, FrameOf.kind]

/-- LINK_OFF ends (R135, R155, R164). -/
theorem NodeInv.recover (h : NodeInv s) (hn : s.life.nodeState = .linkOff) : NodeInv s.recover := by
  have hr : s.running = true := by simp [State.running, hn, NodeState.runs]
  obtain ⟨hq, hf⟩ := h.queue.empty (by simp [hn, NodeState.admits])
  obtain ⟨-, -, hstat⟩ := h.life
  refine Sound.recomputed ?_ rfl (h.eligible.withLife (by simp [State.isActive, hn])) (h.summed.withLife hr)
  refine h.sound.withLife hr rfl ?_ ⟨Nat.zero_le _, fun h8 => absurd (show 0 = Config.faultLimit from h8) (by decide)⟩ h.own_frame ?_ h.leave
  · exact ⟨by simp [hq], by simp [hq], by simp [hf], fun _ => Or.inr hf⟩
  · simpa [LifeDeadlinesInStep, hn] using hstat

/-- The status timer of an ACTIVE node (R162). -/
theorem NodeInv.askStatus (h : NodeInv s) (hn : s.life.nodeState = .active) : NodeInv s.askStatus := by
  have hr : s.running = true := by simp [State.running, hn, NodeState.runs]
  obtain ⟨hlisten, hrec, -⟩ := h.life
  have h' : NodeInv { s with life := { s.life with statusDeadline := some (s.now + s.cfg.statPeriod) } } :=
    { h with
      rests := .of_running hr
      life := ⟨hlisten, hrec, by simp [hn]⟩ }
  exact h'.offer hr nofun nofun

/-- The entry into ACTIVE taken by the Round Controller, and the change of P, in either order (R18, R53). -/
theorem Sound.takeEntry (h : Sound s) (hr : s.running = true) (hs : SensorsSummed s) (b : Bool) :
    Sound (s.takeEntry b) ∧ SensorsSummed (s.takeEntry b) ∧ (s.takeEntry b).running = true := by
  have hround := h.round.takeEntry b
  cases b with
  | false =>
    have hm := s.takeEntry_last_moves
    have h' : Sound { s with eligible := s.eligibleNow } := { h with rests := .of_running hr }
    exact ⟨h'.moves hm hr hround, SensorsSummed.moves hm hs, hm.running.trans hr⟩
  | true =>
    obtain ⟨hm₁, hm₂⟩ := s.takeEntry_first_moves
    have hr₁ := hm₁.running.trans hr
    have h₁ := h.moves hm₁ hr h.round.roundEntersActive
    have h₁' : Sound { s.roundEntersActive with eligible := s.eligibleNow } := { h₁ with rests := .of_running hr₁ }
    have hs₁ := hs.moves hm₁
    exact ⟨h₁'.moves hm₂ hr₁ hround, SensorsSummed.moves hm₂ hs₁, hm₂.running.trans hr₁⟩

/-- A completed JOIN: nothing is left pending or in flight, and the node is ACTIVE with a STATUS to send (R53, R155, R161). -/
theorem NodeInv.enterActive (h : NodeInv s) (hn : s.life.nodeState = .joining) (hq : s.queue = [])
    (hflag : s.life.leavePending = false) {l : Link} (hnone : l.inFlight = none) (hfaults : l.faults < Config.faultLimit)
    (hw : l.ownOnWire = true → l.receiver = .receiving) : NodeInv (({ s with link := l } : State).enterActive) := by
  have hr : s.running = true := by simp [State.running, hn, NodeState.runs]
  obtain ⟨hlisten, hrec, -⟩ := h.life
  let c := h.withClock s.now (s.choices + 1) s.pending
  have hm : Sound { s with
      choices := s.choices + 1
      link := l
      life := { s.life with nodeState := .active, statusDeadline := some (s.now + s.cfg.statPeriod) } } := by
    refine c.sound.withLife (n := s.eligible) (q := s.queue) hr rfl ?_ ⟨hfaults.le, fun h8 => absurd h8 hfaults.ne⟩ hw
      ?_ ?_
    · exact ⟨by simp [hq], by simp [hq], by simp [hnone], nofun⟩
    · have hlisten' : s.life.listenDeadline = none := by simpa [hn] using hlisten
      have hrec' : s.life.recoveryDeadline = none := by simpa [hn] using hrec
      simp [LifeDeadlinesInStep, hlisten', hrec']
    · simp [LeaveFlagTrue, hflag, hq, hnone, pendingKind]
  have hsummed : SensorsSummed (State.offer (.status ()) { s with
      choices := s.choices + 1
      link := l
      life := { s.life with nodeState := .active, statusDeadline := some (s.now + s.cfg.statPeriod) } }) := by
    rw [State.offer_frame]
    exact fun _ => h.summed hr
  have hoffer := hm.offer (f := .status ()) rfl nofun nofun
  obtain ⟨hsound, hsum, hrun⟩ :=
    hoffer.takeEntry (State.offer_running _ _) hsummed (Config.roundTakesEntryFirst s.choices)
  exact hsound.recomputed hrun (State.takeEntry_counted _ _) hsum

/-- A frame that has completed (R134): a JOIN enters ACTIVE, a LEAVE leaves for QUIET, any other is just gone. -/
theorem NodeInv.frameCompleted (h : NodeInv s) {f : Frame} (hf : s.link.inFlight = some f) :
    NodeInv (s.clearFlight.completed f.kind) := by
  obtain ⟨hr, hstate⟩ := h.flight hf
  let l : Link :=
    { receiver := .wait, afterEndMark := true, ownOnWire := false, inFlight := none, levels := s.link.levels, faults := 0 }
  have hclear : s.clearFlight = { s with link := l } := rfl
  have hnode : s.clearFlight.life.nodeState = s.life.nodeState := rfl
  have hzero : (0 : Nat) < Config.faultLimit := by decide
  unfold State.completed
  rw [hnode]
  obtain ⟨hj, hk⟩ | ⟨ha, hk⟩ := hstate
  · obtain ⟨-, -, -, hempty⟩ := h.queue
    have hq : s.queue = [] := (hempty hj).resolve_right (by simp [hf])
    have hflag : s.life.leavePending = false := by
      have hl := h.leave
      rw [LeaveFlagTrue, hq, hf] at hl
      cases f <;> simp_all [pendingKind, FrameOf.kind]
    rw [hj, hk, hclear]
    exact h.enterActive hj hq hflag rfl hzero nofun
  · by_cases hleave : f.kind = .leave
    · rw [ha, hleave, hclear]
      exact h.leaveFor hr l (Nat.zero_le _) nofun (Or.inr (Or.inr rfl))
    · have hkeep : NodeInv s.clearFlight := by
        obtain ⟨hn, hq, -, -⟩ := h.queue
        refine h.withFlight (l := l) (q := s.queue) hr ⟨hn, hq, by simp [l], fun _ => Or.inr rfl⟩
          ⟨Nat.zero_le _, fun h8 => absurd (show 0 = Config.faultLimit from h8) (by decide)⟩ nofun ?_
        have hl := h.leave
        rw [LeaveFlagTrue, hf, Option.some.injEq, frame_eq_leave] at hl
        simpa [LeaveFlagTrue, l, hleave] using hl
      rw [ha]
      split
      next hjoin _ => exact absurd hjoin hk
      next hl _ => exact absurd hl hleave
      next => exact hkeep

/-! ### Receptions (R116, R117, R138 to R140) -/

/-- Outside LOADING and CONFIG_FAULT alone can the receiver be RECEIVING. -/
theorem NodeInv.running_of_receiving (h : NodeInv s) (hrec : s.link.receiver = .receiving) : s.running = true := by
  by_contra hn
  have hl := (h.resting (Bool.not_eq_true _ ▸ hn)).link
  simp [hl, Link.reset] at hrec

theorem NodeInv.toWait (h : NodeInv s) (hr : s.running = true) (b : Bool) : NodeInv (s.toWait b) :=
  h.withLink hr _ rfl rfl nofun

theorem NodeInv.addressConflict (h : NodeInv s) (hr : s.running = true) : NodeInv s.addressConflict := by
  have hleave : NodeInv (s.leaveFor .conflict) :=
    h.leaveFor hr s.link h.faults.1 h.own_frame (Or.inr (Or.inl rfl))
  unfold State.addressConflict
  split <;> assumption

/-- A frame that ends: it is delivered, discarded, or an address conflict. -/
theorem NodeInv.receive (h : NodeInv s) (a : Station) (v : Bool) {deliver : State → State}
    (hd : ∀ u : State, NodeInv u → u.running = true → u.isOwn a = false → NodeInv (deliver u)) :
    NodeInv (s.receive a v deliver) := by
  unfold State.receive
  split
  case isFalse => exact h
  case isTrue hrec =>
    have hr := h.running_of_receiving hrec
    have hw := h.toWait hr true
    dsimp only
    split
    · exact hw
    · split
      case isTrue => exact hw.addressConflict hr
      case isFalse ho => exact hd _ hw hr (Bool.not_eq_true _ ▸ ho)

end

end Sys2Proof.Machine

/-! # Every step keeps every invariant -/

namespace Sys2Proof.Machine

section
variable {s : State}

/-! ### The Diagnostic Port (11) -/

/-- A request acts only where the RESET line does not hold the port. -/
theorem NodeInv.serve (h : NodeInv s) {act : State → State} (ha : s.resetLine = false → NodeInv (act s)) :
    NodeInv (s.serve act) := by
  unfold State.serve
  split
  case isTrue => exact h
  case isFalse hl => exact ha (Bool.not_eq_true _ ▸ hl)

theorem NodeInv.respond (h : NodeInv s) (hl : s.resetLine = false) (r : DiagResult) (items : List Byte) :
    NodeInv (s.respond r items) :=
  h.withPort hl _

/-- Beside an answer, a request acts only in a running node and on arguments in range (R179). -/
theorem NodeInv.judge (h : NodeInv s) (hl : s.resetLine = false) {α : Type} (x : Option α) {act : α → State → State}
    (ha : ∀ y, s.running = true → NodeInv (act y s)) : NodeInv (State.judge x act s) := by
  unfold State.judge
  split
  case isTrue hr =>
    split
    next y => exact ha y hr
    next => exact h.respond hl _ _
  case isFalse => exact h.respond hl _ _

theorem NodeInv.acknowledgeOwn (h : NodeInv s) (hr : s.running = true) (hl : s.resetLine = false)
    (x : ChannelSet) : NodeInv (s.acknowledgeOwn x) := by
  obtain ⟨hspec, -⟩ := s.acknowledge_spec x
  exact (h.acknowledge hr x).respond (by rw [hspec]; exact hl) _ _

theorem NodeInv.acknowledgeRemote (h : NodeInv s) (hr : s.running = true) (hl : s.resetLine = false) (p : AckPair) :
    NodeInv (s.acknowledgeRemote p) := by
  unfold State.acknowledgeRemote
  split
  · exact h.acknowledgeOwn hr hl _
  · split
    · exact h.respond hl _ _
    · split
      · exact h.respond hl _ _
      · have ho : NodeInv (s.offer (.ack [p])) := h.offer hr (by simp [FrameOf.kind]) (by simp [FrameOf.kind])
        exact ho.respond (by rw [State.offer_resetLine, hl]) _ _

/-- An accepted LEAVE is pending, and the flag says so (R166). -/
theorem NodeInv.acceptLeave (h : NodeInv s) (ha : s.isActive = true) : NodeInv s.acceptLeave := by
  have hn : s.life.nodeState = .active := by simpa [State.isActive] using ha
  have hr : s.running = true := by simp [State.running, hn, NodeState.runs]
  have hq := h.queue.offer (f := .leave) (by simp [FrameOf.kind])
  have hpending : pendingKind (s.offer .leave).queue .leave = true := by
    rw [State.offer_queue, hn]
    exact pendingKind_enqueue_self s.queue .leave
  unfold State.acceptLeave
  dsimp only
  rw [State.offer_frame] at hq hpending ⊢
  exact { h with
    rests := .of_running hr
    queue := hq
    leave := ⟨fun _ => Or.inl hpending, fun _ => rfl⟩ }

theorem NodeInv.askLeave (h : NodeInv s) (hl : s.resetLine = false) : NodeInv s.askLeave := by
  unfold State.askLeave
  split
  · exact h.respond hl _ _
  · split
    case isTrue => exact h.respond hl _ _
    case isFalse ha =>
      refine (h.acceptLeave (by simpa using ha)).respond ?_ _ _
      simp [State.acceptLeave, hl]

/-! ### Round frames -/

/-- A round frame delivered (R16, R23). -/
theorem NodeInv.receiveRound (h : NodeInv s) (a : Station) (v : Bool) {f : State → State}
    (hm : ∀ t : State, t.RoundMoves (f t))
    (hf : ∀ t : State, RoundInStep t → t.isOwn a = false → RoundInStep (f t)) :
    NodeInv (s.receive a v (State.viaRound a f)) :=
  h.receive a v fun _ hu hr ha => hu.viaRound hr ha hm hf

/-! ### The Round Controller's deadlines (R41, R45) -/

/-- An OPEN or COMMITTED record is that of a running node. -/
theorem NodeInv.running_of_round (h : NodeInv s) (hn : s.round.state ≠ .idle) : s.running = true := by
  by_contra hr
  rw [(h.resting (Bool.not_eq_true _ ▸ hr)).round] at hn
  exact hn rfl

theorem NodeInv.abandonRound (h : NodeInv s) (ho : s.round.state = .opened) : NodeInv s.abandon.propose := by
  have hr := h.running_of_round (by simp [ho])
  exact h.moves (s.abandon_moves.trans s.abandon.propose_moves) hr (h.round.abandon ho).propose

theorem NodeInv.halt (h : NodeInv s) (hc : s.round.state = .committed) : NodeInv s.halt :=
  h.moves s.halt_moves (h.running_of_round (by simp [hc])) (h.round.halt hc)

/-- A receiver out of WAIT is that of a running node. -/
theorem NodeInv.running_of_idle (h : NodeInv s) (hidle : s.link.receiver = .idle) : s.running = true := by
  by_contra hn
  have hl := (h.resting (Bool.not_eq_true _ ▸ hn)).link
  simp [hl, Link.reset] at hidle

theorem State.closeWindow_running (s : State) (f : FanId) : (s.closeWindow f).running = s.running := by
  unfold State.closeWindow
  dsimp only
  split <;> simp [State.mirrorFans]

end

/-! ### Every command -/

/-- Whatever command is taken, in a state that meets the invariants, leads to one that meets them. -/
theorem NodeInv.exec {s t : State} (h : NodeInv s) {c : Instr} (hx : exec c s = .next t) : NodeInv t := by
  cases c <;> obtain rfl := Host.Outcome.next.inj hx
  case powerOn => exact .powerOn
  case resetLineAsserted => exact s.allReset_keeps _ _
  case resetLineReleased =>
    split
    case isTrue hl => exact h.release hl
    case isFalse => exact h
  case imageByteArrives late b =>
    split
    case isTrue hb => exact h.keepByte (by simpa [State.reading] using (Bool.and_eq_true _ _ ▸ hb).1) b
    case isFalse => exact h
  case memoryReadRefused =>
    split
    case isTrue hd => exact h.readFailed hd
    case isFalse => exact h
  case byteDeadlineExpires =>
    split
    case isTrue hd => exact h.readFailed ((expired_iff _ _).mp hd).isSome
    case isFalse => exact h
  case sampleWord w =>
    split
    case isTrue hw =>
      simp only [State.takesWord, Bool.and_eq_true] at hw
      obtain ⟨⟨hr, -⟩, he⟩ := hw
      exact (h.armSample hr he).takeSample hr he _
    case isFalse => exact h
  case sampleDeadlineExpires n =>
    split
    case isTrue hd =>
      obtain ⟨hr, he⟩ := h.enabled_of_due ((expired_iff _ _).mp hd)
      exact (h.armSample hr he).takeSample hr he _
    case isFalse => exact h
  case tachEdge f =>
    split
    case isTrue hw => exact h.tachEdge hw
    case isFalse => exact h
  case windowDeadlineExpires f =>
    split
    case isTrue hd =>
      have hr := h.supervised.running_of_window ((expired_iff _ _).mp hd)
      have hc := h.closeWindow hr f
      exact hc.nextWindow ((s.closeWindow_running f).trans hr) f
    case isFalse => exact h
  case fallDeadlineExpires f =>
    split
    case isTrue hd => exact h.stepDown (h.running_of_fall ((expired_iff _ _).mp hd)) f _
    case isFalse => exact h
  case silenceDeadlineExpires a =>
    split
    case isTrue hd => exact h.fallSilent hd.1 ((expired_iff _ _).mp hd.2)
    case isFalse => exact h
  case lostDeadlineExpires a =>
    split
    case isTrue hd => exact h.beLost hd.1 ((expired_iff _ _).mp hd.2)
    case isFalse => exact h
  case receiveJoin a g d => exact h.receive a _ fun _ hu hr ha => hu.peerJoins hr ha g d
  case receiveStatus a f => exact h.receive a _ fun _ hu hr ha => hu.peerReports hr ha f
  case receiveAlarm a rs => exact h.receive a _ fun _ hu hr ha => hu.peerAlarms hr ha rs
  case receiveAck a ps => exact h.receive a _ fun _ hu hr ha => hu.peerAcks hr ha ps
  case receivePropose a r c x =>
    exact h.receiveRound a _ (fun _ => State.hearPropose_moves _ a r c x) fun _ hu ha => hu.hearPropose ha r c x
  case receiveVote a r v =>
    exact h.receiveRound a _ (fun _ => State.hearVote_moves _ a r v) fun _ hu ha => hu.hearVote ha r v
  case receiveWithdraw a r =>
    exact h.receiveRound a _ (fun _ => State.hearWithdraw_moves _ a r) fun _ hu _ => hu.hearWithdraw a r
  case receiveCommit a r cs =>
    exact h.receiveRound a _ (fun _ => State.hearCommitment_moves _ r _) fun _ hu _ => hu.hearCommitment r _
  case receiveLeave a => exact h.receive a _ fun _ hu hr ha => hu.peerLeaves hr ha
  case malformedFrameDiscarded w =>
    split
    case isTrue hrec => exact h.toWait (h.running_of_receiving hrec) true
    case isFalse => exact h
  case receptionFailure cause =>
    split
    case isTrue hrec => exact h.toWait (h.running_of_receiving hrec) false
    case isFalse => exact h
  case idleGapElapsed n =>
    split
    case isTrue hg =>
      refine h.withLink hg.1 _ rfl rfl fun hw => ?_
      have hrec := h.own_frame hw
      simp [hg.2.1] at hrec
    case isFalse => exact h
  case beginTransmission wire =>
    split
    case isTrue hb =>
      obtain ⟨-, hflight, hsend⟩ := hb
      split
      next f hf =>
        refine h.beginFrame ?_ hf hflight wire
        simp only [State.maySend, Bool.or_eq_true, beq_iff_eq] at hsend
        obtain hn | hn := hsend <;> simp [State.running, hn, NodeState.runs]
      next => exact h
    case isFalse => exact h
  case arbitrationLost =>
    split
    next f hf =>
      split
      · exact h.loseArbitration hf
      · exact h
    next => exact h
  case transmitFault wire =>
    split
    next f hf =>
      split
      · exact h.faultOn hf
      · exact h
    next => exact h
  case frameCompletes =>
    split
    next f hf =>
      split
      · exact h.frameCompleted hf
      · exact h
    next => exact h
  case listenDeadlineExpires =>
    split
    case isTrue hd => exact h.startJoining hd.1
    case isFalse => exact h
  case recoveryDeadlineExpires =>
    split
    case isTrue hd => exact h.recover hd.1
    case isFalse => exact h
  case statusDeadlineExpires =>
    split
    case isTrue hd => exact h.askStatus hd.1
    case isFalse => exact h
  case roundDeadlineExpires =>
    split
    case isTrue hd => exact h.abandonRound hd.1
    case isFalse => exact h
  case graceDeadlineExpires =>
    split
    case isTrue hd => exact h.halt hd.1
    case isFalse => exact h
  case node => exact h.serve fun hl => h.respond hl _ _
  case round => exact h.serve fun hl => h.judge hl _ fun _ _ => h.respond hl _ _
  case peer a => exact h.serve fun hl => h.judge hl _ fun _ _ => h.respond hl _ _
  case channel n => exact h.serve fun hl => h.judge hl _ fun _ _ => h.respond hl _ _
  case fan f => exact h.serve fun hl => h.judge hl _ fun _ _ => h.respond hl _ _
  case ackLocal x => exact h.serve fun hl => h.judge hl _ fun y hr => h.acknowledgeOwn hr hl y
  case ackRemote a x => exact h.serve fun hl => h.judge hl _ fun y hr => h.acknowledgeRemote hr hl y
  case leave => exact h.serve fun hl => h.judge hl _ fun _ _ => h.askLeave hl
  case unknownCommand code =>
    split
    · exact h.serve fun hl => h.respond hl _ _
    · exact h
  case startMarkReceived =>
    split
    case isTrue hidle => exact h.withLink (h.running_of_idle hidle) _ rfl rfl nofun
    case isFalse => exact h
  case faultedFrameReceptionEnds =>
    split
    case isTrue hw => exact h.toWait (h.running_of_receiving hw.1) true
    case isFalse => exact h

/-- A step takes a waiting command, or, with none waiting, a due expiry or a millisecond (00 "Times and deadlines"). -/
theorem NodeInv.step {s t : State} (h : NodeInv s) (hs : step s = .next t) : NodeInv t := by
  unfold Sys2Proof.Machine.step at hs
  split at hs
  next c rest _ => exact (h.withClock s.now s.choices rest).exec hs
  next =>
    unfold State.unattended at hs
    split at hs
    next =>
      obtain rfl := Host.Outcome.next.inj hs
      exact h.withClock (s.now + 1) s.choices s.pending
    next => exact h.exec hs
    next => exact (h.withClock s.now (s.choices + 1) s.pending).exec hs

/-! ### The obligations -/

/-- Settles O54: the reset state is a node at rest. -/
theorem resetMeetsTheInvariants : Obligations.ResetMeetsTheInvariants := State.reset_keeps

/-- Settles O55: P is counted anew with every change of an entry and of the node state, and the own entry's mirrors follow
what they mirror, so every step keeps them. -/
theorem everyStepKeepsThePeerTableTrue : Obligations.EveryStepKeepsThePeerTableTrue :=
  fun _ _ h hs => ⟨(h.step hs).eligible, (h.step hs).own, (h.step hs).ageing⟩

/-- Settles O56: every operation of the Round Controller leaves a record in step, and only an asserted latch makes it
HALTED. -/
theorem everyStepKeepsTheRoundInStep : Obligations.EveryStepKeepsTheRoundInStep :=
  fun _ _ h hs => ⟨(h.step hs).round, (h.step hs).latch⟩

/-- Settles O57: samples and acknowledgements keep each record in step, and end with the two sums recomputed. -/
theorem everyStepKeepsTheSensorsInStep : Obligations.EveryStepKeepsTheSensorsInStep :=
  fun _ _ h hs => ⟨(h.step hs).watches, (h.step hs).summed, (h.step hs).samples⟩

/-- Settles O58: what a target reads is followed by a recomputation, and duties, windows and counts are stepped in step. -/
theorem everyStepKeepsTheFansInStep : Obligations.EveryStepKeepsTheFansInStep :=
  fun _ _ h hs => ⟨(h.step hs).targets, (h.step hs).duties, (h.step hs).supervised⟩

/-- Settles O59: queueing, purging, flight and return keep one admitted entry a kind, and the flag with them. -/
theorem everyStepKeepsTheQueueLegal : Obligations.EveryStepKeepsTheQueueLegal :=
  fun _ _ h hs => ⟨(h.step hs).queue, (h.step hs).leave, (h.step hs).faults, (h.step hs).own_frame⟩

/-- Settles O60: blocks rest until a good image is loaded, and every passage arms its own deadline alone. -/
theorem everyStepKeepsTheNodeStateInStep : Obligations.EveryStepKeepsTheNodeStateInStep :=
  fun _ _ h hs =>
    ⟨(h.step hs).rests, (h.step hs).held, (h.step hs).configured, (h.step hs).loader, (h.step hs).life⟩

end Sys2Proof.Machine

/-! # The block's step (logs 1, 2, 26) and the reset values -/

namespace Sys2Proof.Machine

section
variable {s : State}

/-! ### What a step takes -/

theorem step_of_pending {c : Instr} {rest : List Instr} (h : s.pending = c :: rest) :
    step s = exec c { s with pending := rest } := by
  unfold step
  rw [h]

theorem step_of_idle (h : s.pending = []) : step s = s.unattended := by
  unfold step
  rw [h]

theorem unattended_of_none (h : s.dueCommands = []) : s.unattended = .next s.tick := by
  unfold State.unattended
  rw [h]

theorem unattended_of_one {c : Instr} (h : s.dueCommands = [c]) : s.unattended = exec c s := by
  unfold State.unattended
  rw [h]

theorem unattended_of_more {c d : Instr} {cs : List Instr} (h : s.dueCommands = c :: d :: cs) :
    s.unattended = exec (pickDue s.choices c (d :: cs)) { s with choices := s.choices + 1 } := by
  unfold State.unattended
  rw [h]

/-- The free value picks one of those that are due, whatever number it is. -/
theorem pickDue_mem (n : Nat) (c : Instr) (cs : List Instr) : pickDue n c cs ∈ c :: cs := by
  have hlt : Config.dueOrder n % (cs.length + 1) < (c :: cs).length := Nat.mod_lt _ (Nat.succ_pos _)
  rw [pickDue, List.getD_eq_getElem _ _ hlt]
  exact List.getElem_mem hlt

/-! ### What is due -/

theorem mem_dueIf {b : Bool} {c d : Instr} : c ∈ dueIf b d ↔ c = d ∧ b = true := by
  cases b <;> simp [dueIf]

theorem exists_fan {p : FanId → Prop} : (∃ f, p f) ↔ p .a ∨ p .b := by
  constructor
  · rintro ⟨f, hf⟩
    cases f with
    | a => exact .inl hf
    | b => exact .inr hf
  · rintro (h | h)
    · exact ⟨_, h⟩
    · exact ⟨_, h⟩

/-! ### After a reset -/

theorem State.reset_watch (c : Channel) : State.reset.watch c = WatchRecord.reset := by
  simp [State.watch, State.reset]

theorem State.reset_fan (f : FanId) : State.reset.fan f = FanRecord.reset := by
  cases f <;> rfl

theorem State.reset_sampleDeadlines (c : Channel) : State.reset.sampleDeadlines[c] = none := by
  simp [State.reset]

theorem State.reset_votes (a : Station) : State.reset.round.votes[a] = none := by
  simp [State.reset, RoundRecord.reset]

end

/-- Settles O1: the first arm of `step`. -/
theorem stepRunsTheFrontCommand : Obligations.StepRunsTheFrontCommand :=
  fun _ _ _ h => step_of_pending h

/-- Settles O2: one lemma for each number of expiries that are due. -/
theorem idleStepActsOnADueExpiry : Obligations.IdleStepActsOnADueExpiry := by
  intro s hp
  rw [step_of_idle hp]
  refine ⟨unattended_of_none, fun c => unattended_of_one, fun hl => ?_⟩
  obtain ⟨c, d, cs, hcs⟩ : ∃ c d cs, s.dueCommands = c :: d :: cs := by
    match s.dueCommands, hl with
    | c :: d :: cs, _ => exact ⟨c, d, cs, rfl⟩
  exact ⟨_, hcs ▸ pickDue_mem s.choices c (d :: cs), unattended_of_more hcs⟩

/-- Settles O3: membership in the list of the due, deadline by deadline. -/
theorem dueExpiriesAreTheExpiredDeadlines : Obligations.DueExpiriesAreTheExpiredDeadlines := by
  intro s c
  simp only [State.dueCommands, List.mem_append, List.mem_flatMap, List.mem_finRange, true_and, mem_dueIf, expired_iff,
    exists_fan, State.fan, or_assoc]

/-- Settles O5: the reset values, block by block. -/
theorem resetLeavesTheSpecifiedValues : Obligations.ResetLeavesTheSpecifiedValues := by
  refine ⟨State.reset_peer, State.reset_watch, State.reset_fan, State.reset_sampleDeadlines, ?_⟩
  refine ⟨rfl, rfl, rfl, rfl, rfl, rfl, rfl, rfl, rfl, rfl, State.reset_votes, ?_⟩
  decide

/-- Settles O6: power-on and the RESET line give the reset state itself; the read begins where the line is not held. -/
theorem resetsPutEveryBlockAtItsResetValues : Obligations.ResetsPutEveryBlockAtItsResetValues := by
  constructor
  · intro s
    show Host.Outcome.next (s.allReset false s.resetLine).enterLoading = _
    unfold State.enterLoading
    cases hl : s.resetLine with
    | true => simp [State.allReset, State.reset, Loader.reset]
    | false => simp [State.allReset, State.reset, State.beginRead, Config.byteInterval]
  · intro s
    refine ⟨rfl, fun hl => ?held, fun hl => ?free⟩
    case held => exact congrArg Host.Outcome.next (if_pos hl)
    case free => exact congrArg Host.Outcome.next (if_neg (Bool.eq_false_iff.mp hl))

end Sys2Proof.Machine

/-! # The image's reads, the end of the load and the checks (10 R171 to R177) -/

namespace Sys2Proof.Machine

section
variable {s : State}

/-! ### One byte -/

theorem State.keepByte_of_more {b : Byte} (h : s.loader.bytes.length + 1 < 192) :
    s.keepByte b = { s with loader :=
      { s.loader with bytes := s.loader.bytes ++ [b], byteDeadline := some (s.now + 10) } } := by
  have hl : (s.loader.bytes ++ [b]).length < Config.imageBytes := by simpa [Config.imageBytes] using h
  exact if_pos hl

theorem State.keepByte_of_last {b : Byte} (h : s.loader.bytes.length + 1 = 192) :
    s.keepByte b = ({ s with loader := { s.loader with byteDeadline := none, bytes := s.loader.bytes ++ [b] } } :
      State).finishLoad (s.loader.bytes ++ [b]) := by
  have hl : ¬ (s.loader.bytes ++ [b]).length < Config.imageBytes := by simp [Config.imageBytes, h]
  exact if_neg hl

theorem exec_imageByteArrives {b : Byte} (h : s.loader.byteDeadline.isSome = true) :
    exec (.imageByteArrives false b) s = .next (s.keepByte b) :=
  congrArg Host.Outcome.next (if_pos (by simp [State.reading, h]))

theorem exec_imageByteArrives_discarded {late : Bool} {b : Byte} (h : s.loader.byteDeadline = none ∨ late = true) :
    exec (.imageByteArrives late b) s = .next s := by
  refine congrArg Host.Outcome.next (if_neg ?_)
  obtain hd | hl := h
  · simp [State.reading, hd]
  · simp [hl]

/-- A refusal and an expiry both fail the read in progress (R172). -/
theorem exec_of_failedRead {c : Instr} (h : (c = .memoryReadRefused ∧ s.loader.byteDeadline.isSome = true)
    ∨ (c = .byteDeadlineExpires ∧ Due s.loader.byteDeadline s.now)) : exec c s = .next s.readFailed := by
  obtain ⟨rfl, hd⟩ | ⟨rfl, hd⟩ := h
  · exact congrArg Host.Outcome.next (if_pos hd)
  · exact congrArg Host.Outcome.next (if_pos ((expired_iff _ _).mpr hd))

/-! ### The load that fails -/

/-- A node in CONFIG_FAULT has its fans forced by the node state (R94, R158). -/
theorem State.loadFault_forced (s : State) (c : FaultCode) (f : FanId) :
    ((s.loadFault c).fan f).target = 255 ∧ ((s.loadFault c).fan f).reason = .forced .nodeState := by
  obtain ⟨-, -, hcurrent⟩ := s.loadFault_spec c
  obtain ⟨htarget, hreason⟩ := hcurrent f
  obtain ⟨hstopped, hforced⟩ := (s.loadFault c).targetNow_stopped f rfl
  exact ⟨htarget.trans hstopped, hreason.trans hforced⟩

/-! ### The load that succeeds -/

theorem State.recomputeTargets_peer (s : State) (a : Station) : s.recomputeTargets.peer a = s.peer a := by
  rw [State.peer, State.recomputeTargets_peers, State.peer]

theorem State.loadGood_peer_ne (s : State) (g : StartImage) {a : Station} (ha : a ≠ g.address) :
    (s.loadGood g).peer a = s.peer a := by
  rw [State.loadGood_loaded, State.recomputeTargets_peer]
  exact s.loaded_peer_ne g ha

theorem State.loadGood_sampleDeadlines (s : State) (g : StartImage) (c : Channel) :
    (s.loadGood g).sampleDeadlines[c] = if g.channels[c].enabled then some (s.now + g.sampleSeconds * 1000) else none := by
  rw [State.loadGood_loaded]
  exact Vector.getElem_ofFn _

theorem State.loadGood_summed (s : State) (g : StartImage) : SensorsSummed (s.loadGood g) := by
  rw [State.loadGood_loaded]
  exact (s.loaded_summed g).moves (State.recomputeTargets_moves _)

theorem State.loadGood_own (s : State) (g : StartImage) : OwnEntryMirrors (s.loadGood g) := by
  rw [State.loadGood_loaded]
  exact (s.loaded_own g).moves (State.recomputeTargets_moves _)

theorem State.loaded_fan (s : State) (g : StartImage) (f : FanId) :
    (s.loaded g).fan f = (s.fan f).openWindow s.now g.stallFloor := by
  cases f <;> rfl

/-- The first windows open, and the fans' states and counts are as they were (R98). -/
theorem State.loadGood_supervision (s : State) (g : StartImage) (f : FanId) :
    ((s.loadGood g).fan f).windowDeadline = some (s.now + 1000) ∧ ((s.loadGood g).fan f).edgeSeen = false
      ∧ ((s.loadGood g).fan f).condition = (s.fan f).condition
      ∧ ((s.loadGood g).fan f).stallCount = (s.fan f).stallCount
      ∧ ((s.loadGood g).fan f).goodCount = (s.fan f).goodCount := by
  rw [State.loadGood_loaded, State.recomputeTargets_fan, State.retarget_windowDeadline, State.retarget_edgeSeen,
    State.retarget_condition, State.retarget_stallCount, State.retarget_goodCount, State.loaded_fan]
  exact ⟨rfl, rfl, rfl, rfl, rfl⟩

/-! ### The checks (R173, R174) -/

/-- The code of the first failing check of a list of checks, one check at a time. -/
theorem firstFailing_cons (b : Bool) (c : FaultCode) (l : List (Bool × FaultCode)) :
    (((b, c) :: l).find? (fun x => !x.1)).map (·.2)
      = if !b then some c else (l.find? (fun x => !x.1)).map (·.2) := by
  cases b <;> rfl

theorem quorumGood_bounds {g : StartImage} (h : quorumGood g = true) : 1 ≤ g.kMin ∧ g.kMin ≤ g.k ∧ g.k ≤ 16 := by
  simp only [quorumGood, inSpan, Bool.and_eq_true, decide_eq_true_eq] at h
  obtain ⟨⟨⟨-, hk⟩, hmin, -⟩, hle⟩ := h
  exact ⟨hmin, hle, hk⟩

theorem StartImage.good_quorum {g : StartImage} (h : g.good = true) : quorumGood g = true := by
  simp only [StartImage.good, Bool.and_eq_true] at h
  obtain ⟨⟨⟨⟨hq, -⟩, -⟩, -⟩, -⟩ := h
  exact hq

end

/-- Settles O7: the byte kept or discarded, then the failed read below the third attempt and at it. -/
theorem imageReadsAreKeptOrRetried : Obligations.ImageReadsAreKeptOrRetried := by
  refine ⟨fun s late b => ⟨?kept, exec_imageByteArrives_discarded⟩, fun s c hc => ?failed⟩
  case kept =>
    rintro hd rfl hl
    rw [exec_imageByteArrives hd, State.keepByte_of_more hl]
  case failed =>
    rw [exec_of_failedRead hc]
    refine ⟨fun hlt => congrArg Host.Outcome.next (if_pos hlt), fun hge => ⟨s.loadFault .memorySilent, ?_, ?_⟩⟩
    · exact congrArg Host.Outcome.next (if_neg (Nat.not_lt.mpr hge))
    · obtain ⟨hframe, hsup, -⟩ := s.loadFault_spec .memorySilent
      exact ⟨hframe, hsup, s.loadFault_forced .memorySilent⟩

/-- Settles O8: the 192 bytes are checked; a fault ends in `loadFault`, a good image in `loadGood`. -/
theorem lastByteEndsTheLoad : Obligations.LastByteEndsTheLoad := by
  intro s b hd hl
  rw [exec_imageByteArrives hd, State.keepByte_of_last hl]
  generalize s.loader.bytes ++ [b] = l
  refine ⟨_, rfl, fun c hc => ?fault, fun hgood => ?good⟩
  case fault =>
    have hx : ∀ u : State, u.finishLoad l = u.loadFault c := fun u => by simp only [State.finishLoad, hc]
    rw [hx]
    obtain ⟨hframe, hsup, -⟩ := State.loadFault_spec
      { s with loader := { s.loader with byteDeadline := none, bytes := l } } c
    exact ⟨hframe, hsup⟩
  case good =>
    have hx : ∀ u : State, u.finishLoad l = u.loadGood (imageOf l) := fun u => by simp only [State.finishLoad, hgood]
    rw [hx]
    generalize imageOf l = g
    generalize hu : ({ s with loader := { s.loader with byteDeadline := none, bytes := l } } : State) = u
    have hnow : u.now = s.now := by rw [← hu]
    have hpeer : ∀ a, u.peer a = s.peer a := fun a => by rw [← hu]; rfl
    have hlatch : u.shutdownLatch = s.shutdownLatch := by rw [← hu]
    have hfan : ∀ f, u.fan f = s.fan f := fun f => by rw [← hu]; rfl
    obtain ⟨y, t, ht, hy, hframe, hcounted, -⟩ := u.loadGood_spec g
    have hpeers := fun a => u.loadGood_peer_ne g (a := a)
    have hsamples := u.loadGood_sampleDeadlines g
    have hsummed := u.loadGood_summed g
    have hmirrors := u.loadGood_own g
    have hsup := u.loadGood_supervision g
    rw [ht] at *
    have himage : t.image = some g := by rw [hframe, hy]
    have hlife : t.life = { s.life with nodeState := .listening, listenDeadline := some (s.now + g.listenInterval) } := by
      rw [hframe, hy, ← hu]
    have htlatch : t.shutdownLatch = s.shutdownLatch := by rw [hframe, hy, hlatch]
    have hcfg : t.cfg = g := by rw [State.cfg, himage]; rfl
    have hown : t.own = g.address := by rw [State.own, hcfg]
    have hrun : t.running = true := by simp [State.running, hlife, NodeState.runs]
    have hk : ∀ c, t.channelCfg c = g.channels[c] := fun c => by rw [State.channelCfg, hcfg]
    obtain ⟨hdemand, hstanding⟩ := hsummed hrun
    have hentry := hmirrors hrun
    refine ⟨?_, ?_, fun c => ?_, hdemand, hstanding, hcounted, fun a ha => ?_, ?_, ?_, ?_, ?_, ?_, fun f => ?_⟩
    · have hdeadlines : y.armSamples.sampleDeadlines = t.sampleDeadlines := by rw [hframe]
      have hlocal : y.localDemandNow = t.localDemand := by rw [hframe]
      have hverdict : y.standingNow = t.standing := by rw [hframe]
      refine hframe.trans ?_
      rw [hcfg, hdeadlines, hlocal, hverdict, hy, ← hu]
    · rw [hcfg]; rfl
    · rw [hsamples, hk, hnow, hcfg]
    · rw [hpeers a (hown ▸ ha), hpeer]
    · rw [hentry]
    · rw [hentry]
    · rw [hentry]
    · rw [hentry]
    · rw [hentry, htlatch]
    · rw [← hfan f, ← hnow]
      exact hsup f

/-- Settles O9: both sides test the same checks in the same order; the ranges are those of check 4. -/
theorem firstFailingCheckGivesTheCode : Obligations.FirstFailingCheckGivesTheCode := by
  intro l
  refine ⟨?code, fun hnone => ?ranges⟩
  case code => simp only [firstFailing_cons, List.find?_nil, Option.map_none, imageFault]
  case ranges =>
    have hgood := imageFault_none hnone
    exact ⟨hgood, quorumGood_bounds (StartImage.good_quorum hgood)⟩

end Sys2Proof.Machine

/-! # Samples, reports, the verdict and the demand curve (03, 04) -/

namespace Sys2Proof.Machine

/-! ### The lowest number that passes a test -/

/-- The search from the lowest number upward finds the lowest that passes. -/
theorem find_finRange_iff {n : Nat} {p : Fin n → Bool} {c : Fin n} :
    (List.finRange n).find? p = some c ↔ p c = true ∧ ∀ d, d < c → p d = false := by
  rw [List.find?_eq_some_iff_getElem]
  constructor
  · rintro ⟨hp, i, hi, hic, hlow⟩
    rw [List.getElem_finRange] at hic
    refine ⟨hp, fun d hd => ?_⟩
    have hlt : d.val < i := by
      rw [← hic] at hd
      exact hd
    have hd' := hlow d.val hlt
    rw [List.getElem_finRange] at hd'
    simpa using hd'
  · rintro ⟨hp, hlow⟩
    refine ⟨hp, c.val, by simp, by simp, fun j hj => ?_⟩
    have hj' := hlow ⟨j, hj.trans c.isLt⟩ hj
    simpa using hj'

/-! ### The sample word (R56, R57, R122) -/

section
variable {s : State} {w : Word16}

theorem classify_fault (h : w.getLsbD 12 = true ∨ wordReading w < -128 ∨ 383 < wordReading w) :
    classify w = .fault := by
  unfold classify wordFault legalReading
  refine if_pos ?_
  rw [Bool.or_eq_true, Bool.not_eq_true', decide_eq_false_iff_not, not_and_or, not_le, not_le]
  exact h

theorem classify_valid (hf : w.getLsbD 12 = false) (hlo : -128 ≤ wordReading w) (hhi : wordReading w ≤ 383) :
    classify w = .valid (wordReading w) := by
  unfold classify wordFault legalReading
  refine if_neg ?_
  rw [hf, decide_eq_true ⟨hlo, hhi⟩]
  exact Bool.false_ne_true

theorem State.takesWord_iff : s.takesWord w = true ↔
    s.running = true ∧ w.extractLsb' 0 2 = 0 ∧ (s.channelCfg (wordChannel w)).enabled = true := by
  simp [State.takesWord, wordSpareClear, and_assoc]

/-! ### A sample taken whole (R61) -/

theorem State.armSample_afterSample (s t : State) (c d : Channel) (p : Sample) :
    (s.armSample c).afterSample t d p = s.afterSample t d p := rfl

/-- A deadline restarted and a sample handled are a sample's effect. -/
theorem State.sampleEffect (s : State) (c : Channel) (p : Sample) :
    s.SampleEffect ((s.armSample c).takeSample c p) c p := by
  have hmoves := (s.armSample c).takeSample_moves c p
  have hsummed := (s.armSample c).takeSample_summed c p
  have hround := (s.armSample c).takeSample_round c p
  generalize (s.armSample c).takeSample c p = t at *
  rw [State.armSample_afterSample] at hround
  have hchannels : s.channels.set c
      (((s.watch c).takeSample (s.channelCfg c) p).criticalStep (s.channelCfg c) p) = t.channels := by
    rw [hmoves.frame]
    rfl
  refine ⟨?_, hmoves.watch_self, fun d hd => hmoves.watch_ne hd, hsummed.1, hsummed.2, hmoves.others,
    hmoves.supervision, hround⟩
  refine hmoves.frame.trans ?_
  rw [← hchannels]
  rfl

theorem exec_sampleWord (h : s.takesWord w = true) : exec (.sampleWord w) s
    = .next ((s.armSample (wordChannel w)).takeSample (wordChannel w) (classify w)) :=
  congrArg Host.Outcome.next (if_pos h)

/-! ### The records reported (R66) -/

theorem sampleRecords_of_none {c : Channel} {k : ChannelConfig} {p : Sample} {r : WatchRecord}
    (h : conditionEvent k p (r.sense p) = none) :
    sampleRecords c k p r = (sensorEvent p r).toList.map fun d => alarmRecord c k d (r.sense p) := by
  simp only [sampleRecords, h, List.append_nil]

theorem sampleRecords_of_some {c : Channel} {k : ChannelConfig} {p : Sample} {r : WatchRecord} {e : AlarmEvent}
    (h : conditionEvent k p (r.sense p) = some e) :
    sampleRecords c k p r = ((sensorEvent p r).toList.map fun d => alarmRecord c k d (r.sense p))
      ++ (if reports k.mode e ((r.sense p).conditionStep k p) then [alarmRecord c k e (r.takeSample k p)] else []) := by
  simp only [sampleRecords, h]

theorem reportReading_of_value {k : ChannelConfig} {e : AlarmEvent} {x : HalfDegrees} (he : e ≠ .fault) :
    reportReading k e (.value x) = x := by
  cases e with
  | fault => exact absurd rfl he
  | restore | rise | fall => rfl

theorem reportReading_of_fault {k : ChannelConfig} {e : AlarmEvent} (he : e ≠ .fault) :
    reportReading k e .fault = k.highLimit := by
  cases e with
  | fault => exact absurd rfl he
  | restore | rise | fall => rfl

/-! ### The reason of a proposal (R26) -/

theorem State.reasonChannel_lowest (h : s.nodeCritical = true) :
    s.isCritical s.reasonChannel = true ∧ ∀ d, d < s.reasonChannel → s.isCritical d = false := by
  obtain ⟨c, hc⟩ := Option.isSome_iff_exists.mp (List.find?_isSome.mpr (List.any_eq_true.mp h))
  have hr : s.reasonChannel = c := by simp only [State.reasonChannel, hc, Option.getD_some]
  exact hr ▸ find_finRange_iff.mp hc

theorem CriticalState.ne_critical {x : CriticalState} (h : (x == .critical) = false) : x = .calm := by
  cases x with
  | calm => rfl
  | critical => exact absurd h (by decide)

end

/-- Settles O10: the word's tests, then the sample it gives, the records it reports, and the reason. -/
theorem sampleWordsAreTakenOrDiscarded : Obligations.SampleWordsAreTakenOrDiscarded := by
  refine ⟨fun s w => ⟨?taken, ?discarded⟩, ?record, ?records, fun s hs => ?reason⟩
  case taken =>
    intro hr hspare he
    refine ⟨_, exec_sampleWord (State.takesWord_iff.mpr ⟨hr, hspare, he⟩), fun hf => ?_, fun hf hlo hhi => ?_⟩
    · rw [classify_fault hf]
      exact s.sampleEffect _ _
    · rw [classify_valid hf hlo hhi]
      exact s.sampleEffect _ _
  case discarded =>
    intro h
    refine congrArg Host.Outcome.next (if_neg fun ht => ?_)
    obtain ⟨hr, hspare, he⟩ := State.takesWord_iff.mp ht
    obtain h | h | h := h
    · simp [hr] at h
    · exact h hspare
    · simp [he] at h
  case record =>
    intro c k e w
    refine ⟨rfl, rfl, beq_iff_eq, ?_, fun x he hx => ?_, fun he hx => ?_⟩
    · rintro rfl
      rfl
    · rw [alarmRecord, hx, reportReading_of_value he]
    · rw [alarmRecord, hx, reportReading_of_fault he]
  case records =>
    intro c k p w
    refine ⟨fun hs hc => ?_, fun e hs hc => ?_, fun e hc hr => ?_, fun e hc hr => ?_⟩
    · rw [sampleRecords_of_none hc, hs]
      rfl
    · rw [sampleRecords_of_none hc, hs]
      rfl
    · rw [sampleRecords_of_some hc, hr, if_neg Bool.false_ne_true, List.append_nil]
    · rw [sampleRecords_of_some hc, hr, if_pos rfl]
  case reason =>
    obtain ⟨hc, hlow⟩ := State.reasonChannel_lowest hs
    refine ⟨beq_iff_eq.mp hc, fun d hd => CriticalState.ne_critical (hlow d hd), fun x hx => ?_, fun hx => ?_⟩
    · simp only [State.reasonReading, hx]
    · simp only [State.reasonReading, hx]

/-- Settles O11: an expiry is a fault sample with its deadline restarted. -/
theorem expiredSampleDeadlineIsAFaultSample : Obligations.ExpiredSampleDeadlineIsAFaultSample :=
  fun s c h => ⟨_, congrArg Host.Outcome.next (if_pos ((expired_iff _ _).mpr h)), s.sampleEffect c .fault⟩

/-- Settles O14: `reports`, `afterEvent`, `ackEvent` and `acknowledge` by mode and report state. -/
theorem reportsAndAcknowledgementsGoByMode : Obligations.ReportsAndAcknowledgementsGoByMode := by
  constructor
  · intro w e
    refine ⟨rfl, rfl, fun h => ?_, fun h => ?_, fun h => ?_, fun h => ?_, ?_, ?_⟩
    · simp [reports, WatchRecord.afterEvent, WatchRecord.reported, h]
    · simp [reports, WatchRecord.afterEvent, h]
    · simp [reports, WatchRecord.afterEvent, WatchRecord.reported, h]
    · simp [reports, WatchRecord.afterEvent, h]
    · cases h : w.reportState <;> simp [reports, h]
    · cases h : w.reportState <;> simp [reports, WatchRecord.afterEvent, h]
  · intro w
    refine ⟨fun h => ?_, fun h => ?_, fun hu hc => ?_, fun h => ?_⟩
    · simp [ackEvent, WatchRecord.acknowledge, h]
    · cases hc : w.condition with
      | raised => simp [ackEvent, WatchRecord.acknowledge, WatchRecord.reported, hc ▸ h, hc]
      | normal => simp [ackEvent, WatchRecord.acknowledge, WatchRecord.reported, hc ▸ h, hc]
    · simp [ackEvent, WatchRecord.acknowledge, WatchRecord.reported, hu, hc]
    · have hnone : ackEvent .once w = none := by
        obtain h | h := h <;> simp [ackEvent, h]
      simp [WatchRecord.acknowledge, hnone]

/-- Settles O16: the standing verdict, ALERT and SHUTDOWN by their causes. -/
theorem verdictAndLinesFollowTheState : Obligations.VerdictAndLinesFollowTheState := by
  refine ⟨fun s => ?verdict, fun s => ⟨?alert, rfl⟩⟩
  case verdict =>
    have hcauses : (s.nodeCritical || (List.finRange 8).any s.corroborates || s.cfg.trust) = true ↔
        (∃ c, (s.watch c).criticalState = .critical)
          ∨ (∃ c, (s.channelCfg c).enabled = true ∧ (s.channelCfg c).corroborating = true
            ∧ (s.watch c).condition = .raised ∧ (s.watch c).faulted = false)
          ∨ s.cfg.trust = true := by
      simp only [Bool.or_eq_true, State.nodeCritical_iff, List.any_eq_true, List.mem_finRange, true_and,
        State.corroborates_iff, or_assoc]
    rw [← hcauses]
    unfold State.standingNow
    split
    case isTrue h => exact iff_of_true rfl h
    case isFalse h => exact iff_of_false (by decide) h
  case alert =>
    simp only [State.alert, Bool.or_eq_true, List.any_eq_true, List.mem_finRange, true_and, beq_iff_eq, bne_iff_ne,
      State.fanFailed, exists_or, exists_fan, or_assoc, ne_eq]

/-! ### The demand curve (R75) -/

section
variable {d d' : Byte} {t t' x : Int}

/-- What a segment adds to its lower demand stays within the segment's rise. -/
theorem interpolate_rise_le (ht : t < t') (hx : x ≤ t') :
    ((((d'.toNat - d.toNat : Nat) : Int) * (x - t) / (t' - t)).toNat) ≤ d'.toNat - d.toNat := by
  have hpos : 0 < t' - t := by omega
  have hle : ((d'.toNat - d.toNat : Nat) : Int) * (x - t) ≤ ((d'.toNat - d.toNat : Nat) : Int) * (t' - t) :=
    Int.mul_le_mul_of_nonneg_left (by omega) (Int.natCast_nonneg _)
  have hdiv := Int.ediv_le_of_le_mul hpos hle
  omega

theorem interpolate_toNat (hd : d.toNat ≤ d'.toNat) (ht : t < t') (hx : x ≤ t') :
    (interpolate d d' t t' x).toNat
      = d.toNat + (((d'.toNat - d.toNat : Nat) : Int) * (x - t) / (t' - t)).toNat := by
  have hrise := interpolate_rise_le (d := d) (d' := d') ht hx
  have hd' := d'.isLt
  rw [interpolate, BitVec.toNat_ofNat, Nat.mod_eq_of_lt (by omega)]

theorem interpolate_left : interpolate d d' t t' t = d := by
  simp [interpolate]

theorem interpolate_right (hd : d.toNat ≤ d'.toNat) (ht : t < t') : interpolate d d' t t' t' = d' := by
  apply BitVec.eq_of_toNat_eq
  rw [interpolate_toNat hd ht le_rfl, Int.mul_ediv_cancel _ (by omega)]
  omega

/-- A segment rises. -/
theorem interpolate_monotoneOn (hd : d.toNat ≤ d'.toNat) (ht : t < t') :
    MonotoneOn (fun x => (interpolate d d' t t' x).toNat) (Set.Icc t t') := by
  rintro x ⟨-, hx⟩ y ⟨-, hy⟩ hxy
  dsimp only
  rw [interpolate_toNat hd ht hx, interpolate_toNat hd ht hy]
  have hpos : 0 < t' - t := by omega
  have hmul : ((d'.toNat - d.toNat : Nat) : Int) * (x - t) ≤ ((d'.toNat - d.toNat : Nat) : Int) * (y - t) :=
    Int.mul_le_mul_of_nonneg_left (sub_le_sub_right hxy t) (Int.natCast_nonneg _)
  have hdiv := Int.ediv_le_ediv hpos hmul
  omega

end

section
variable {k : ChannelConfig}

/-- What check 7 asks of an enabled channel's curve (R174). -/
theorem curveGood_iff (he : k.enabled = true) (hg : curveGood k = true) :
    (k.t0 < k.t1 ∧ k.t1 < k.t2 ∧ k.t2 < k.t3)
      ∧ k.d0.toNat ≤ k.d1.toNat ∧ k.d1.toNat ≤ k.d2.toNat ∧ k.d2.toNat ≤ k.d3.toNat := by
  simp only [curveGood, he, Bool.not_true, Bool.false_or, Bool.and_eq_true, decide_eq_true_eq] at hg
  obtain ⟨⟨-, ht⟩, hd⟩ := hg
  exact ⟨ht, hd⟩

variable (ht : k.t0 < k.t1 ∧ k.t1 < k.t2 ∧ k.t2 < k.t3)
  (hd : k.d0.toNat ≤ k.d1.toNat ∧ k.d1.toNat ≤ k.d2.toNat ∧ k.d2.toNat ≤ k.d3.toNat)
include ht hd

theorem ChannelConfig.curve_first {x : HalfDegrees} (hx : x ∈ Set.Icc k.t0 k.t1) :
    k.curve x = interpolate k.d0 k.d1 k.t0 k.t1 x := by
  obtain ⟨hlo, hhi⟩ := hx
  unfold ChannelConfig.curve
  split
  case isTrue h =>
    obtain rfl : x = k.t0 := le_antisymm h hlo
    exact interpolate_left.symm
  case isFalse h =>
    split
    case isTrue => rfl
    case isFalse h' =>
      obtain rfl : x = k.t1 := le_antisymm hhi (not_lt.mp h')
      rw [if_pos rfl, interpolate_right hd.1 ht.1]

theorem ChannelConfig.curve_second {x : HalfDegrees} (hx : x ∈ Set.Icc k.t1 k.t2) :
    k.curve x = interpolate k.d1 k.d2 k.t1 k.t2 x := by
  obtain ⟨hlo, hhi⟩ := hx
  unfold ChannelConfig.curve
  rw [if_neg (ht.1.trans_le hlo).not_ge, if_neg hlo.not_gt]
  split
  case isTrue h => rw [h, interpolate_left]
  case isFalse h =>
    split
    case isTrue => rfl
    case isFalse h' =>
      obtain rfl : x = k.t2 := le_antisymm hhi (not_lt.mp h')
      rw [if_pos rfl, interpolate_right hd.2.1 ht.2.1]

theorem ChannelConfig.curve_third {x : HalfDegrees} (hx : x ∈ Set.Icc k.t2 k.t3) :
    k.curve x = interpolate k.d2 k.d3 k.t2 k.t3 x := by
  obtain ⟨hlo, hhi⟩ := hx
  have h₁ : k.t1 < x := ht.2.1.trans_le hlo
  unfold ChannelConfig.curve
  rw [if_neg (ht.1.trans h₁).not_ge, if_neg h₁.not_gt, if_neg h₁.ne', if_neg hlo.not_gt]
  split
  case isTrue h => rw [h, interpolate_left]
  case isFalse h =>
    split
    case isTrue => rfl
    case isFalse h' =>
      obtain rfl : x = k.t3 := le_antisymm hhi (not_lt.mp h')
      exact (interpolate_right hd.2.2 ht.2.2).symm

omit ht hd in
theorem ChannelConfig.curve_below {x : HalfDegrees} (hx : x ≤ k.t0) : k.curve x = k.d0 := if_pos hx

omit hd in
theorem ChannelConfig.curve_above {x : HalfDegrees} (hx : k.t3 ≤ x) : k.curve x = k.d3 := by
  have h₂ : k.t2 < x := ht.2.2.trans_le hx
  have h₁ : k.t1 < x := ht.2.1.trans h₂
  unfold ChannelConfig.curve
  rw [if_neg (ht.1.trans h₁).not_ge, if_neg h₁.not_gt, if_neg h₁.ne', if_neg h₂.not_gt, if_neg h₂.ne', if_neg hx.not_gt]

/-- Five pieces that meet at the four points, each rising or level. -/
theorem ChannelConfig.curve_monotone : Monotone fun x => (k.curve x).toNat := by
  have hbelow : MonotoneOn (fun x => (k.curve x).toNat) (Set.Iic k.t0) := fun x hx y hy _ => by
    dsimp only
    rw [ChannelConfig.curve_below hx, ChannelConfig.curve_below hy]
  have hfirst : MonotoneOn (fun x => (k.curve x).toNat) (Set.Icc k.t0 k.t1) :=
    (interpolate_monotoneOn hd.1 ht.1).congr fun x hx => by simp only [ChannelConfig.curve_first ht hd hx]
  have hsecond : MonotoneOn (fun x => (k.curve x).toNat) (Set.Icc k.t1 k.t2) :=
    (interpolate_monotoneOn hd.2.1 ht.2.1).congr fun x hx => by simp only [ChannelConfig.curve_second ht hd hx]
  have hthird : MonotoneOn (fun x => (k.curve x).toNat) (Set.Icc k.t2 k.t3) :=
    (interpolate_monotoneOn hd.2.2 ht.2.2).congr fun x hx => by simp only [ChannelConfig.curve_third ht hd hx]
  have habove : MonotoneOn (fun x => (k.curve x).toNat) (Set.Ici k.t3) := fun x hx y hy _ => by
    dsimp only
    rw [ChannelConfig.curve_above ht hx, ChannelConfig.curve_above ht hy]
  have h₁ := hbelow.union_right hfirst isGreatest_Iic (isLeast_Icc ht.1.le)
  rw [Set.Iic_union_Icc_eq_Iic ht.1.le] at h₁
  have h₂ := h₁.union_right hsecond isGreatest_Iic (isLeast_Icc ht.2.1.le)
  rw [Set.Iic_union_Icc_eq_Iic ht.2.1.le] at h₂
  have h₃ := h₂.union_right hthird isGreatest_Iic (isLeast_Icc ht.2.2.le)
  rw [Set.Iic_union_Icc_eq_Iic ht.2.2.le] at h₃
  exact h₃.Iic_union_Ici habove

end

/-- Settles O17: the curve is five pieces that meet at the four points; each rises or is level, so it rises. -/
theorem demandCurveRisesThroughItsPoints : Obligations.DemandCurveRisesThroughItsPoints := by
  intro k he hg
  obtain ⟨ht, hd⟩ := curveGood_iff he hg
  have hmono := ChannelConfig.curve_monotone ht hd
  have h₀ : k.curve k.t0 = k.d0 := ChannelConfig.curve_below le_rfl
  have h₁ : k.curve k.t1 = k.d1 := by
    rw [ChannelConfig.curve_second ht hd ⟨le_rfl, ht.2.1.le⟩, interpolate_left]
  have h₂ : k.curve k.t2 = k.d2 := by
    rw [ChannelConfig.curve_third ht hd ⟨le_rfl, ht.2.2.le⟩, interpolate_left]
  have h₃ : k.curve k.t3 = k.d3 := ChannelConfig.curve_above ht le_rfl
  refine ⟨h₀, h₁, h₂, h₃, fun x y hxy => hmono hxy, fun x => ⟨?_, ?_⟩⟩
  · obtain hx | hx := le_total x k.t0
    · rw [ChannelConfig.curve_below hx]
    · exact h₀ ▸ hmono hx
  · obtain hx | hx := le_total x k.t3
    · exact h₃ ▸ hmono hx
    · rw [ChannelConfig.curve_above ht hx]

/-! ### ACK_LOCAL (R71, R185) -/

/-- An acknowledgement, in the words of the round rules, whatever the port answers (R66, R71, R87). -/
theorem State.acknowledge_roundAs (s : State) (x : ChannelSet) (p : Option Transaction) :
    (s.acknowledge x).RoundAs ((({ s.acknowledge x with
      round := s.round, queue := s.queue, shutdownLatch := s.shutdownLatch, life := s.life, port := p } :
      State).reporting
        (s.ackRecords fun c => member x c)).verdictTurns s.standing) := by
  obtain ⟨hframe, -⟩ := s.acknowledge_spec x
  have hsig := s.acknowledge_signatureState x
  have hround := s.acknowledge_round x
  generalize s.acknowledge x = t at *
  have htallied : s.Tallied { t with
      round := s.round, queue := s.queue, shutdownLatch := s.shutdownLatch, life := s.life, port := p } :=
    ⟨by rw [hframe], by rw [hframe], rfl, by rw [hframe], fun a => (hsig a).symm, rfl, rfl, rfl, rfl⟩
  exact hround _ htallied (by rw [hframe]) rfl rfl

/-- Settles O18: the acknowledgement, answered OK. -/
theorem ackLocalAcknowledgesTheSet : Obligations.AckLocalAcknowledgesTheSet := by
  intro s x ha hr hx
  have hl : s.resetLine = false := ha
  have hexec : exec (.ackLocal x) s = .next (s.acknowledgeOwn x) := by
    show Host.Outcome.next (s.serve (State.judge (channelArgument x) State.acknowledgeOwn)) = _
    have harg : channelArgument x = some x := if_neg hx
    simp [State.serve, hl, State.judge, hr, harg]
  obtain ⟨hframe, hwatch, hothers, hstanding, hsup⟩ := s.acknowledge_spec x
  have hround := s.acknowledge_roundAs x (some (.response [0, 0] 0))
  refine ⟨s.acknowledgeOwn x, hexec, ?_⟩
  unfold State.acknowledgeOwn
  generalize s.acknowledge x = t at *
  refine ⟨hwatch, hstanding, rfl, ?_, hothers, hsup, hround⟩
  exact congrArg (State.respond .ok []) hframe

end Sys2Proof.Machine

/-! # The fans' commands and the forcing conditions (05) -/

namespace Sys2Proof.Machine

section
variable {s : State} {f : FanId}

/-! ### The fall (R96, R100) -/

section
variable {now step floor : Nat} {r : FanRecord}

theorem FanRecord.stepDown_of_none (h : min step (r.duty.toNat - r.target.toNat) = 0) :
    r.stepDown now step floor =
      { r with fallDeadline := if r.target.toNat < r.duty.toNat then some (now + 500) else none } := by
  simp [FanRecord.stepDown, h, Config.fallInterval]

theorem FanRecord.stepDown_of_some (h : min step (r.duty.toNat - r.target.toNat) ≠ 0) :
    r.stepDown now step floor =
      { r.withDuty floor (BitVec.ofNat 8 (r.duty.toNat - min step (r.duty.toNat - r.target.toNat))) with
        fallDeadline :=
          if r.target.toNat < (BitVec.ofNat 8 (r.duty.toNat - min step (r.duty.toNat - r.target.toNat))).toNat
          then some (now + 500) else none } := by
  simp only [FanRecord.stepDown, if_neg h, Config.fallInterval]

/-- A step leaves a byte. -/
theorem FanRecord.lowered_toNat (r : FanRecord) (n : Nat) :
    (BitVec.ofNat 8 (r.duty.toNat - n)).toNat = r.duty.toNat - n := by
  have hlt := r.duty.isLt
  rw [BitVec.toNat_ofNat, Nat.mod_eq_of_lt (by omega)]

end

/-! ### One fan changed -/

theorem State.setFan_fan (s : State) (f : FanId) (r : FanRecord) (g : FanId) :
    (s.setFan f r).fan g = if g = f then r else s.fan g := by
  cases f <;> cases g <;> rfl

theorem State.updateOwn_fanFailed (s : State) (g : PeerEntry → PeerEntry) (f : FanId) :
    (s.updateOwn g).fanFailed f = s.fanFailed f := by
  rw [State.fanFailed, State.updateOwn_fan, State.fanFailed]

/-- A fan changed in its window alone is no change for any target. -/
theorem TargetsCurrent.setFan (h : TargetsCurrent s) {r : FanRecord} (ht : r.target = (s.fan f).target)
    (hreason : r.reason = (s.fan f).reason) (hc : r.condition = (s.fan f).condition) :
    TargetsCurrent (s.setFan f r) := by
  have hfailed : ∀ g, (s.setFan f r).fanFailed g = s.fanFailed g := by
    intro g
    rw [State.fanFailed, State.setFan_fan, State.fanFailed]
    split
    case isTrue hg => rw [hc, hg]
    case isFalse => rfl
  refine h.same ⟨s.setFan_image f r, s.setFan_running f r, by rw [s.setFan_round f r], s.setFan_shutdownLatch f r,
    hfailed, fun a => by cases f <;> rfl⟩ fun g => ?_
  rw [State.setFan_fan]
  split
  case isTrue hg => rw [ht, hreason, hg]; exact ⟨rfl, rfl⟩
  case isFalse => exact ⟨rfl, rfl⟩

/-! ### The closed window (R98, R101 to R103) -/

theorem State.closeWindow_of_same (h : (s.fan f).judgeWindow.condition = (s.fan f).condition) :
    s.closeWindow f = s.setFan f (s.fan f).judgeWindow := by
  unfold State.closeWindow
  exact if_pos ((congrArg _ (s.fan_setFan_self f _)).trans h)

theorem State.closeWindow_of_changed (h : (s.fan f).judgeWindow.condition ≠ (s.fan f).condition) :
    s.closeWindow f = (s.setFan f (s.fan f).judgeWindow).recomputeTargets.mirrorFans := by
  unfold State.closeWindow
  exact if_neg fun hc => h ((congrArg _ (s.fan_setFan_self f _)).symm.trans hc)

/-- The judgement moves counts and fan state; a recomputation that follows keeps them. -/
theorem State.closeWindow_supervision (s : State) (f : FanId) :
    (s.setFan f (s.fan f).judgeWindow).SameSupervision (s.closeWindow f) := by
  by_cases h : (s.fan f).judgeWindow.condition = (s.fan f).condition
  · rw [State.closeWindow_of_same h]
    exact .refl _
  · rw [State.closeWindow_of_changed h]
    intro g
    rw [State.mirrorFans, State.updateOwn_fan]
    exact State.recomputeTargets_supervision _ g

theorem State.closeWindow_frame (s : State) (f : FanId) :
    s.closeWindow f =
      { s with peers := (s.closeWindow f).peers, fanA := (s.closeWindow f).fanA, fanB := (s.closeWindow f).fanB } := by
  by_cases h : (s.fan f).judgeWindow.condition = (s.fan f).condition
  · rw [State.closeWindow_of_same h]
    cases f <;> rfl
  · rw [State.closeWindow_of_changed h]
    generalize (s.fan f).judgeWindow = r
    cases f <;> rfl

theorem State.closeWindow_peer_ne (s : State) (f : FanId) {a : Station} (ha : a ≠ s.own) :
    (s.closeWindow f).peer a = s.peer a := by
  by_cases h : (s.fan f).judgeWindow.condition = (s.fan f).condition
  · rw [State.closeWindow_of_same h, State.peer, State.setFan_peers, State.peer]
  · have hne : a ≠ (s.setFan f (s.fan f).judgeWindow).recomputeTargets.own := by
      rwa [State.recomputeTargets_own, State.setFan_own]
    rw [State.closeWindow_of_changed h, State.mirrorFans, State.updateOwn_peer_ne _ _ hne, State.peer,
      State.recomputeTargets_peers, State.setFan_peers, State.peer]

/-- A change of fan state leaves the targets current and the own entry's flags true (R103). -/
theorem State.closeWindow_changed (h : (s.fan f).judgeWindow.condition ≠ (s.fan f).condition) :
    (s.image.isSome = true → TargetsCurrent (s.closeWindow f))
      ∧ ((s.closeWindow f).peer s.own).fanAFailed = (s.closeWindow f).fanFailed .a
      ∧ ((s.closeWindow f).peer s.own).fanBFailed = (s.closeWindow f).fanFailed .b := by
  rw [State.closeWindow_of_changed h]
  have hown : s.own = (s.setFan f (s.fan f).judgeWindow).recomputeTargets.own := by
    rw [State.recomputeTargets_own, State.setFan_own]
  have himage : (s.setFan f (s.fan f).judgeWindow).recomputeTargets.image = s.image := by
    rw [State.recomputeTargets_image, State.setFan_image]
  have hcurrent := (s.setFan f (s.fan f).judgeWindow).recomputeTargets_current
  generalize (s.setFan f (s.fan f).judgeWindow).recomputeTargets = u at *
  refine ⟨fun hi => hcurrent.updateOwn (himage ▸ hi) rfl, ?_, ?_⟩
  · rw [hown, State.mirrorFans, State.updateOwn_peer_own, State.updateOwn_fanFailed]
  · rw [hown, State.mirrorFans, State.updateOwn_peer_own, State.updateOwn_fanFailed]

/-! ### Forcing (R94) -/

theorem State.forcing_of_stopped (h : s.running = false) : s.forcing f = some .nodeState := by
  simp [State.forcing, h]

theorem State.forcing_of_decided (hr : s.running = true) (h : s.round.state = .committed ∨ s.round.state = .halted) :
    s.forcing f = some .roundDecided := by
  simp [State.forcing, hr, h]

variable (hr : s.running = true) (hc : s.round.state ≠ .committed) (hh : s.round.state ≠ .halted)
include hr hc hh

theorem State.forcing_of_latch (hl : s.shutdownLatch = true) : s.forcing f = some .shutdownLatch := by
  simp [State.forcing, hr, hc, hh, hl]

theorem State.forcing_of_other (hl : s.shutdownLatch = false) (ho : (s.fan (otherFan f)).condition = .failed) :
    s.forcing f = some .otherFan := by
  simp [State.forcing, hr, hc, hh, hl, State.fanFailed, ho]

theorem State.forcing_none (hl : s.shutdownLatch = false) (ho : (s.fan (otherFan f)).condition = .ok) :
    s.forcing f = none := by
  simp [State.forcing, hr, hc, hh, hl, State.fanFailed, ho]

omit hr hc hh

theorem State.targetNow_forced {c : Forcing} (h : s.forcing f = some c) : s.targetNow f = 255 := by
  simp only [State.targetNow, h]

theorem State.reasonNow_forced {c : Forcing} (h : s.forcing f = some c) : s.reasonNow f = .forced c := by
  simp only [State.reasonNow, h]

theorem State.targetNow_unforced (h : s.forcing f = none) : s.targetNow f = s.unforcedTarget f := by
  simp only [State.targetNow, h]

theorem State.reasonNow_unforced (h : s.forcing f = none) : s.reasonNow f = s.unforcedReason f := by
  simp only [State.reasonNow, h]

/-! ### The reason of an unforced target (R109) -/

theorem State.unforcedReason_floor (h : ∀ a, s.weightedDemand f a ≤ (s.fanCfg f).floor.toNat) :
    s.unforcedReason f = .floor :=
  if_pos (State.largestDemand_le_iff.mpr h)

/-- Above the floor the target is the largest demand, and the reason the lowest-numbered station that makes it. -/
theorem State.unforcedReason_station {a : Station} (ha : (s.fanCfg f).floor.toNat < s.weightedDemand f a)
    (he : s.weightedDemand f a = (s.unforcedTarget f).toNat)
    (hlow : ∀ b, b < a → s.weightedDemand f b ≠ (s.unforcedTarget f).toNat) : s.unforcedReason f = .station a := by
  have hlt : (s.fanCfg f).floor.toNat < s.largestDemand f := ha.trans_le (s.weightedDemand_le f a)
  have htarget : (s.unforcedTarget f).toNat = s.largestDemand f := by
    rw [State.unforcedTarget_toNat, max_eq_right hlt.le]
  rw [htarget] at he hlow
  have hfind : (List.finRange 16).find? (fun b => s.weightedDemand f b == s.largestDemand f) = some a :=
    find_finRange_iff.mpr ⟨beq_iff_eq.mpr he, fun b hb => beq_eq_false_iff_ne.mpr (hlow b hb)⟩
  rw [State.unforcedReason, if_neg hlt.not_ge, hfind]

end

/-- Settles O19: the command's test is that of the window deadline. -/
theorem tachEdgeSetsEdgeSeen : Obligations.TachEdgeSetsEdgeSeen := by
  intro s f
  refine ⟨fun h => congrArg Host.Outcome.next (if_pos h), fun h => congrArg Host.Outcome.next (if_neg ?_)⟩
  simp [h]

/-- Settles O20: `stepDown` where there is something to lower and where there is not. -/
theorem fallDeadlineStepsTheDuty : Obligations.FallDeadlineStepsTheDuty := by
  intro s f h
  refine ⟨_, congrArg Host.Outcome.next (if_pos ((expired_iff _ _).mpr h)), ?_⟩
  by_cases hstep : min s.cfg.fallStep ((s.fan f).duty.toNat - (s.fan f).target.toNat) = 0
  · rw [FanRecord.stepDown_of_none hstep, hstep]
    exact ⟨rfl, rfl, rfl, fun hne => absurd rfl hne, fun _ => rfl⟩
  · rw [FanRecord.stepDown_of_some hstep]
    refine ⟨rfl, FanRecord.lowered_toNat _ _, rfl, fun _ => rfl, fun heq => ?_⟩
    have hsame := (congrArg BitVec.toNat heq).symm.trans (FanRecord.lowered_toNat _ _)
    omega

/-- Settles O21: the judged window, where the fan state changes and where it does not, then the window opened. -/
theorem windowDeadlineClosesAndOpensAWindow : Obligations.WindowDeadlineClosesAndOpensAWindow := by
  intro s f h
  refine ⟨(s.closeWindow f).nextWindow f, congrArg Host.Outcome.next (if_pos ((expired_iff _ _).mpr h)), ?_⟩
  have hframe := s.closeWindow_frame f
  have hpeer := fun a => s.closeWindow_peer_ne f (a := a)
  have hself := s.closeWindow_supervision f f
  have hother := s.closeWindow_supervision f (otherFan f)
  rw [State.fan_setFan_self] at hself
  rw [State.fan_setFan_other] at hother
  have hsame := State.closeWindow_of_same (s := s) (f := f)
  have hchanged := State.closeWindow_changed (s := s) (f := f)
  have hdrive := (s.fan f).judgeWindow_drive
  simp only [Prod.mk.injEq] at hdrive
  obtain ⟨htarget, hduty, -⟩ := hdrive
  generalize s.closeWindow f = u at *
  have hnow : u.now = s.now := by rw [hframe]
  have hcfg : u.cfg = s.cfg := by rw [hframe]; rfl
  have hcondition : (u.fan f).condition = (s.fan f).judgeWindow.condition := by rw [hself]
  have hstall : (u.fan f).stallCount = (s.fan f).judgeWindow.stallCount := by rw [hself]
  have hgood : (u.fan f).goodCount = (s.fan f).judgeWindow.goodCount := by rw [hself]
  have hwindow : (u.nextWindow f).fan f = (u.fan f).openWindow s.now s.cfg.stallFloor := by
    rw [State.nextWindow, State.fan_setFan_self, hnow, hcfg]
  have hnext : (u.nextWindow f).fan (otherFan f) = u.fan (otherFan f) := State.fan_setFan_other _ _ _
  have hpeers : (u.nextWindow f).peers = u.peers := State.setFan_peers _ _ _
  have hfailed : ∀ g, (u.nextWindow f).fanFailed g = u.fanFailed g := by
    intro g
    rw [State.fanFailed, State.nextWindow, State.setFan_fan, State.fanFailed]
    split
    case isTrue hg => rw [hg]; rfl
    case isFalse => rfl
  have hat : ∀ a, (u.nextWindow f).peer a = u.peer a := fun a => by rw [State.peer, hpeers, State.peer]
  have hstate : ((u.nextWindow f).fan f).condition = (s.fan f).judgeWindow.condition := by
    rw [hwindow]
    exact hcondition
  refine ⟨?frame, fun a ha => ?_, ?_, ?_, ?_, hstate, ?_, ?_, ?_, ?_, ?_, fun hc => ?quiet, fun hc hi => ?current,
    fun hc => ?flags⟩
  case frame =>
    have hset : u.nextWindow f =
        { u with fanA := (u.nextWindow f).fanA, fanB := (u.nextWindow f).fanB } := by cases f <;> rfl
    rw [hpeers]
    generalize u.nextWindow f = t at *
    refine hset.trans ?_
    rw [hframe]
  case quiet =>
    have hu := hsame (hstate.symm.trans hc)
    refine ⟨by rw [hpeers, hu, State.setFan_peers], by rw [hnext, hu, State.fan_setFan_other], ?_, ?_⟩
    · rw [hwindow, hu, State.fan_setFan_self]
      exact hduty
    · rw [hwindow, hu, State.fan_setFan_self]
      exact htarget
  case current =>
    obtain ⟨hcurrent, -⟩ := hchanged fun he => hc (hstate.trans he)
    exact (hcurrent hi).setFan rfl rfl rfl
  case flags =>
    obtain ⟨-, ha, hb⟩ := hchanged fun he => hc (hstate.trans he)
    rw [hat, hfailed, hfailed]
    exact ⟨ha, hb⟩
  · rw [hat, hpeer a ha]
  · rw [hwindow]; rfl
  · rw [hwindow]; rfl
  · rw [hwindow]; rfl
  · rw [hwindow]; exact hstall
  · rw [hwindow]; exact hgood
  · rw [hnext, hother]
  · rw [hnext, hother]
  · rw [hnext, hother]

/-- Settles O25: the forcing conditions in their order, then the reason of an unforced target. -/
theorem forcedTargetsAre255 : Obligations.ForcedTargetsAre255 := by
  intro s f
  refine ⟨fun h => ?forced, fun hr hc hh hl ho => State.targetNow_unforced (State.forcing_none hr hc hh hl ho),
    fun h => State.reasonNow_forced (State.forcing_of_stopped h),
    fun hr h => State.reasonNow_forced (State.forcing_of_decided hr h), fun hr hc hh => ⟨fun hl => ?_, fun hl ho => ?_,
      fun hl ho => ?unforced⟩⟩
  case forced =>
    suffices hsome : s.forcing f ≠ none by
      obtain ⟨c, hc⟩ := Option.ne_none_iff_exists'.mp hsome
      exact State.targetNow_forced hc
    intro hnone
    unfold State.forcing State.fanFailed at hnone
    split_ifs at hnone with hn hd hl ho
    simp only [Bool.or_eq_true, beq_iff_eq, not_or] at hd
    simp only [Bool.not_eq_true', Bool.not_eq_false] at hn
    obtain hr | hc | hh | hl' | ho' := h
    · rw [hn] at hr
      exact Bool.noConfusion hr
    · exact hd.1 hc
    · exact hd.2 hh
    · exact hl hl'
    · exact ho (beq_iff_eq.mpr ho')
  case unforced =>
    have hnone := State.forcing_none (f := f) hr hc hh hl ho
    rw [State.reasonNow_unforced hnone]
    exact ⟨State.unforcedReason_floor, fun a => State.unforcedReason_station⟩
  · exact State.reasonNow_forced (State.forcing_of_latch hr hc hh hl)
  · exact State.reasonNow_forced (State.forcing_of_other hr hc hh hl ho)

end Sys2Proof.Machine

/-! # Frames heard from other stations, and entries that age (01, 06) -/

namespace Sys2Proof.Machine

section
variable {s : State} {a : Station}

/-! ### Ageing (R8, R9) -/

/-- A change of an entry, in the words of the round rules (R18, R36). -/
theorem State.changePeer_roundAs (s : State) (a : Station) (f : PeerEntry → PeerEntry) :
    (s.changePeer a f).RoundAs (s.afterEntry (s.changePeer a f) a) := by
  have hf := s.changePeer_frame a f
  exact (s.changePeer_afterEntry _ a f (by rw [hf]) (by rw [hf]) rfl fun _ => rfl).roundAs

theorem PeerEntry.fallSilent_of_lt {e : PeerEntry} {h now lost : Millis} (he : e.lastHeard = some h)
    (hlt : now < h + lost) : e.fallSilent now lost =
      { e with presence := .silent, silenceDeadline := none, lostDeadline := some (h + lost) } := by
  rw [PeerEntry.fallSilent, he]
  exact if_neg (Nat.not_le.mpr hlt)

theorem PeerEntry.fallSilent_of_le {e : PeerEntry} {h now lost : Millis} (he : e.lastHeard = some h)
    (hle : h + lost ≤ now) : e.fallSilent now lost =
      { e with presence := .departed, silenceDeadline := none, lostDeadline := none } := by
  rw [PeerEntry.fallSilent, he]
  exact if_pos hle

/-! ### A frame that is heard (R6, R7, R13 to R15) -/

theorem State.Hears.ne (h : s.Hears a) : a ≠ s.own := by
  obtain ⟨-, -, -, ha⟩ := h
  exact ha

/-- A frame whose whole effect is a change of its sender's entry. -/
theorem State.hearing_change (ha : a ≠ s.own) (f : PeerEntry → PeerEntry) :
    s.HearingEffect ((s.toWait true).changePeer a f) a
      ∧ ((s.toWait true).changePeer a f).RoundAs (s.afterEntry ((s.toWait true).changePeer a f) a)
      ∧ ((s.toWait true).changePeer a f).peer a = f (s.peer a) := by
  obtain ⟨heffect, hentry⟩ := State.hearing_of ha f (.refl _)
  obtain ⟨halike, -⟩ := State.hearing_afterEntry (s := s) (a := a) f (.refl _)
  exact ⟨heffect, halike.roundAs, hentry⟩

/-- What an ALARM record does, field by field (R15). -/
theorem PeerEntry.applyRecord_eq (e : PeerEntry) (r : AlarmRecord) : e.applyRecord r =
    { e with
      raised := if r.event = .rise then insertMember e.raised r.channel
        else if r.event = .fall then removeMember e.raised r.channel else e.raised
      faulted := if r.event = .fault then insertMember e.faulted r.channel
        else if r.event = .restore then removeMember e.faulted r.channel else e.faulted
      unacked := if r.needsAck then insertMember e.unacked r.channel else removeMember e.unacked r.channel } := by
  cases h : r.event <;> simp [PeerEntry.applyRecord, h, putMember]

/-! ### A STATUS (R14, R29, R30, R33, R43) -/

theorem newerRound_iff {r c : Byte} (h : r ≠ c) : newerRound r c = true ↔ (r - c).toNat ≤ 127 := by
  have hpos : 1 ≤ (r - c).toNat := by
    by_contra hn
    have hz : (r - c).toNat = 0 := by omega
    exact h (BitVec.eq_of_toNat_eq (by
      have := r.isLt
      have := c.isLt
      rw [BitVec.toNat_sub] at hz
      omega))
  rw [newerRound, decide_eq_true_iff]
  exact ⟨And.right, fun hle => ⟨hpos, hle⟩⟩

/-- The round fields of an OPEN STATUS, between states that agree for the Round Controller. -/
theorem State.hearOpenStatus_roundAs {u : State} (h : s.Alike u) (hv : s.standing = u.standing) (f : StatusFields) :
    (u.round.state = .idle → f.roundNumber = u.round.lastClosed → (s.hearOpenStatus a f).RoundAs u)
      ∧ (u.round.state = .idle → f.roundNumber ≠ u.round.lastClosed →
        (s.hearOpenStatus a f).RoundAs (u.shownOpenBy a f))
      ∧ (u.round.state = .opened → f.roundNumber = u.round.number →
        (f.verdict = none → (s.hearOpenStatus a f).RoundAs u)
          ∧ (∀ v, f.verdict = some v → (s.hearOpenStatus a f).RoundAs (u.recording a v)))
      ∧ (u.round.state = .opened → f.roundNumber ≠ u.round.number →
        ((f.roundNumber - u.round.number).toNat ≤ 127 →
            (s.hearOpenStatus a f).RoundAs (u.abandoning.shownOpenBy a f))
          ∧ (127 < (f.roundNumber - u.round.number).toNat → (s.hearOpenStatus a f).RoundAs u)) := by
  simp only [State.hearOpenStatus, h.round]
  refine ⟨fun hi he => ?_, fun hi hn => ?_, fun ho he => ⟨fun hf => ?_, fun v hf => ?_⟩,
    fun ho hn => ⟨fun hle => ?_, fun hlt => ?_⟩⟩
  · simp only [hi, if_pos he]
    exact h.roundAs
  · simp only [hi, if_neg hn]
    exact (h.shownOpenBy hv a f).roundAs
  · simp only [ho, if_pos he, hf]
    exact h.roundAs
  · simp only [ho, if_pos he, hf]
    exact (h.recording a v).roundAs
  · simp only [ho, if_neg hn, if_pos ((newerRound_iff hn).mpr hle)]
    exact (h.abandoning.shownOpenBy (State.abandon_standing hv) a f).roundAs
  · simp only [ho, if_neg hn, if_neg fun hx => Nat.not_le.mpr hlt ((newerRound_iff hn).mp hx)]
    exact h.roundAs

/-- A decided record hears no OPEN STATUS and no commitment (R44). -/
theorem State.hearStatusRound_decided (h : s.round.state = .committed ∨ s.round.state = .halted) (f : StatusFields) :
    s.hearStatusRound a f = s := by
  unfold State.hearStatusRound State.hearOpenStatus State.hearCommitment
  obtain h | h := h <;> cases f.roundState <;> simp only [h]

/-- A commitment heard by a record that is not decided is adopted (R42, R43). -/
theorem State.hearCommitment_undecided (h : s.round.state = .idle ∨ s.round.state = .opened) (r : Byte)
    (x : Option StationSet) : s.hearCommitment r x = s.adopt r x := by
  unfold State.hearCommitment
  obtain h | h := h <;> simp only [h]

theorem State.hearCommitment_decided (h : s.round.state = .committed ∨ s.round.state = .halted) (r : Byte)
    (x : Option StationSet) : s.hearCommitment r x = s := by
  unfold State.hearCommitment
  obtain h | h := h <;> simp only [h]

/-- The entry a STATUS leaves, as its delivery to the Round Controller sees it. -/
theorem State.reported_signatureState (ha : a ≠ s.own) (f : StatusFields) :
    (((s.toWait true).changePeer a fun e =>
        ((s.toWait true).refreshed e).applyStatus (s.toWait true).cfg.signature f).peer a).signatureState
      = if f.signature = s.cfg.signature then .isMatch else .mismatch :=
  congrArg PeerEntry.signatureState ((s.toWait true).changePeer_peer a _ ha)

theorem State.peerReports_mismatch (ha : a ≠ s.own) {f : StatusFields} (hg : f.signature ≠ s.cfg.signature) :
    (s.toWait true).peerReports a f = (s.toWait true).changePeer a fun e =>
      ((s.toWait true).refreshed e).applyStatus (s.toWait true).cfg.signature f := by
  have hsig := State.reported_signatureState (s := s) ha f
  rw [if_neg hg] at hsig
  refine if_neg ?_
  rw [State.roundTrafficCounts, hsig]
  decide

theorem State.peerReports_match (ha : a ≠ s.own) {f : StatusFields} (hg : f.signature = s.cfg.signature) :
    (s.toWait true).peerReports a f = ((s.toWait true).changePeer a fun e =>
      ((s.toWait true).refreshed e).applyStatus (s.toWait true).cfg.signature f).hearStatusRound a f := by
  have hsig := State.reported_signatureState (s := s) ha f
  rw [if_pos hg] at hsig
  refine if_pos ?_
  rw [State.roundTrafficCounts, hsig]
  decide

end

/-! ### Delivery of any kind -/

/-- Every frame is delivered by one passage of the receiver (R117, R138 to R140). -/
theorem exec_receiveCommand (s : State) (a : Station) (f : Frame) :
    ∃ deliver, exec (receiveCommand a f) s = .next (s.receive a (validFrame f) deliver) := by
  cases f <;> exact ⟨_, rfl⟩

/-- A round frame changes its sender's entry by the refresh, whatever the Round Controller makes of it (R16). -/
theorem State.hears_viaRound {s : State} {a : Station} (ha : a ≠ s.own) {g : State → State}
    (hg : ∀ t : State, t.RoundMoves (g t)) :
    s.HearingEffect ((s.toWait true).viaRound a g) a
      ∧ ((s.toWait true).viaRound a g).peer a = s.refreshed (s.peer a) :=
  State.hearing_of ha s.refreshed ((s.toWait true).viaRound_moves a g hg)

/-! ### An ACK (R71) -/

section
variable {s : State}

theorem member_or {w : Nat} (x y : BitVec w) (c : Fin w) : member (x ||| y) c = (member x c || member y c) := by
  simp [member]

/-- The union of the sets of the pairs that name this node, channel by channel (R71). -/
theorem State.member_pairsForOwn (s : State) (ps : List AckPair) (c : Channel) :
    member (s.pairsForOwn ps) c = ps.any fun p => p.station == s.own && member p.channels c := by
  have hfold : ∀ (l : List AckPair) (x : ChannelSet),
      member (l.foldl (fun x p => if p.station = s.own then x ||| p.channels else x) x) c
        = (member x c || l.any fun p => p.station == s.own && member p.channels c) := by
    intro l
    induction l with
    | nil => simp
    | cons p l ih =>
      intro x
      rw [List.foldl_cons, ih, List.any_cons]
      by_cases hp : p.station = s.own
      · simp [hp, member_or, Bool.or_assoc]
      · rw [if_neg hp, beq_eq_false_iff_ne.mpr hp, Bool.false_and, Bool.false_or]
  rw [State.pairsForOwn, hfold, member_zero, Bool.false_or]

theorem State.ackRecords_congr {t : State} (hc : t.channels = s.channels) (hi : t.image = s.image)
    (x : Channel → Bool) : t.ackRecords x = s.ackRecords x := by
  have hk : t.channelCfg = s.channelCfg := by
    funext c
    simp only [State.channelCfg, State.cfg, hi]
  have hw : t.watch = s.watch := by
    funext c
    simp only [State.watch, hc]
  rw [State.ackRecords, hk, hw, State.ackRecords]

theorem State.ackRecords_none {x : Channel → Bool} (h : ∀ c, x c = false) : s.ackRecords x = [] := by
  simp [State.ackRecords, h]

theorem State.reporting_nil (s : State) : s.reporting [] = s := by
  unfold State.reporting
  split <;> rfl

/-- A verdict that is what it was has not turned. -/
theorem State.verdictTurns_same (s : State) : s.verdictTurns s.standing = s := by
  refine if_neg fun ⟨hb, hc, _⟩ => ?_
  rw [hb] at hc
  exact absurd hc (by decide)

/-- The state in which the Round Controller takes a frame keeps the records, the verdict and the link it is given. -/
theorem State.afterEntry_keeps (s t : State) (a : Station) :
    (s.afterEntry t a).channels = t.channels ∧ (s.afterEntry t a).standing = t.standing
      ∧ (s.afterEntry t a).link = t.link := by
  unfold State.afterEntry
  dsimp only
  split
  · exact ⟨rfl, rfl, rfl⟩
  · have hm := State.commitTest_moves { t with
      round := s.round, queue := s.queue, shutdownLatch := s.shutdownLatch, life := s.life }
    exact ⟨hm.channels, hm.standing, hm.link⟩

/-- The refresh of an ACK, and the acknowledgement where a pair names this node (R16, R71). -/
theorem State.peerAcks_cases (s : State) (a : Station) (ps : List AckPair) :
    (ps.any (·.station == s.own) = true
        ∧ s.peerAcks a ps = (s.refreshPeer a).acknowledge (s.pairsForOwn ps))
      ∨ (ps.any (·.station == s.own) = false ∧ s.peerAcks a ps = s.refreshPeer a) := by
  unfold State.peerAcks
  dsimp only
  cases h : ps.any (·.station == s.own) with
  | true => exact .inl ⟨rfl, if_pos rfl⟩
  | false => exact .inr ⟨rfl, if_neg Bool.false_ne_true⟩

theorem any_pair_of_none {ps : List AckPair} {own : Station} (h : ps.any (·.station == own) = false) (c : Channel) :
    (ps.any fun p => p.station == own && member p.channels c) = false := by
  rw [List.any_eq_false] at h ⊢
  intro p hp
  simp [h p hp]

/-- What the refresh that an ACK brings leaves (R16, R18). -/
theorem State.hears_refresh {a : Station} (ha : a ≠ s.own) :
    (s.toWait true).refreshPeer a = { s with
        peers := ((s.toWait true).refreshPeer a).peers
        eligible := ((s.toWait true).refreshPeer a).eligible
        round := ((s.toWait true).refreshPeer a).round
        shutdownLatch := ((s.toWait true).refreshPeer a).shutdownLatch
        fanA := ((s.toWait true).refreshPeer a).fanA
        fanB := ((s.toWait true).refreshPeer a).fanB
        queue := ((s.toWait true).refreshPeer a).queue
        link := { s.link with receiver := .wait, afterEndMark := true, ownOnWire := false } }
      ∧ ((s.toWait true).refreshPeer a).peer a = s.refreshed (s.peer a)
      ∧ (∀ b, b ≠ a → b ≠ s.own → ((s.toWait true).refreshPeer a).peer b = s.peer b)
      ∧ s.SameSupervision ((s.toWait true).refreshPeer a) := by
  obtain ⟨-, -, hentry⟩ := State.hearing_change ha s.refreshed
  refine ⟨(s.toWait true).changePeer_frame a s.refreshed, hentry, fun b hba hbo => ?_,
    (s.toWait true).changePeer_supervision a s.refreshed⟩
  exact ((s.toWait true).changePeer_samePeersBut a s.refreshed b hba).trans (if_neg hbo)

/-- An acknowledgement after the refresh, in the words of the round rules (R16, R36, R66, R87). -/
theorem State.hears_acknowledge {a : Station} (ha : a ≠ s.own) (set : ChannelSet) :
    (((s.toWait true).refreshPeer a).acknowledge set).RoundAs
      (((s.afterEntry (((s.toWait true).refreshPeer a).acknowledge set) a).reporting
        (s.ackRecords fun c => member set c)).verdictTurns s.standing) := by
  obtain ⟨hx, -⟩ := s.hears_refresh ha
  obtain ⟨hframe, -⟩ := ((s.toWait true).refreshPeer a).acknowledge_spec set
  have hsig := ((s.toWait true).refreshPeer a).acknowledge_signatureState set
  have hround := ((s.toWait true).refreshPeer a).acknowledge_round set
  have hentry := fun t => (s.toWait true).changePeer_afterEntry t a s.refreshed
  have hrefresh : (s.toWait true).changePeer a s.refreshed = (s.toWait true).refreshPeer a := rfl
  rw [hrefresh] at hentry
  generalize (s.toWait true).refreshPeer a = x at *
  generalize x.acknowledge set = t at *
  have hnow : t.now = s.now := by rw [hframe, hx]
  have himage : t.image = s.image := by rw [hframe, hx]
  have heligible : t.eligible = x.eligible := by rw [hframe]
  have hlink : x.link = t.link := by rw [hframe]
  obtain ⟨hchannels, hstanding, hkeeps⟩ := s.afterEntry_keeps t a
  have htaken := hround (s.afterEntry t a) (hentry t hnow himage heligible hsig) (by rw [hkeeps, hlink]) hchannels
    hstanding
  have hrecords : x.ackRecords (fun c => member set c) = s.ackRecords fun c => member set c :=
    State.ackRecords_congr (by rw [hx]) (by rw [hx]) _
  have hverdict : x.standing = s.standing := by rw [hx]
  rw [hrecords, hverdict] at htaken
  exact htaken

end

/-- Settles O27: an expiry changes the entry; the change is `changePeer`'s. -/
theorem ageingDeadlinesMakeSilentAndDeparted : Obligations.AgeingDeadlinesMakeSilentAndDeparted := by
  refine ⟨fun s a h ha hp hd hl => ?silence, fun s a ha hp hd => ?lost⟩
  case silence =>
    refine ⟨_, congrArg Host.Outcome.next (if_pos ⟨hp, (expired_iff _ _).mpr hd⟩), s.changePeer_ageing a _,
      s.changePeer_roundAs a _, fun hlt => ?_, fun hle => ?_⟩
    · rw [State.changePeer_peer _ _ _ ha]
      exact PeerEntry.fallSilent_of_lt hl hlt
    · rw [State.changePeer_peer _ _ _ ha]
      exact PeerEntry.fallSilent_of_le hl hle
  case lost =>
    exact ⟨_, congrArg Host.Outcome.next (if_pos ⟨hp, (expired_iff _ _).mpr hd⟩), s.changePeer_ageing a _,
      s.changePeer_roundAs a _, State.changePeer_peer _ _ _ ha⟩

/-- Settles O28: LEAVE, JOIN and ALARM are changes of the entry; after that of a STATUS its round fields are heard. -/
theorem entriesFollowTheFramesHeard : Obligations.EntriesFollowTheFramesHeard := by
  refine ⟨fun s a h => ?leave, fun s a h => ⟨fun g d => ?join, fun f hf => ?status, fun rs hrs => ?alarm⟩,
    PeerEntry.applyRecord_eq⟩
  case leave =>
    have ha := h.ne
    exact ⟨_, congrArg Host.Outcome.next (State.receive_hears h _), State.hearing_change ha _⟩
  case join =>
    have ha := h.ne
    exact ⟨_, congrArg Host.Outcome.next (State.receive_hears h _), State.hearing_change ha _⟩
  case alarm =>
    have ha := h.ne
    refine ⟨_, congrArg Host.Outcome.next ?_,
      State.hearing_change ha fun e => ((s.toWait true).refreshed e).applyAlarm rs⟩
    rw [hrs]
    exact State.receive_hears h _
  case status =>
    have ha := h.ne
    have hmoves := (s.toWait true).peerReports_moves a f
    obtain ⟨heffect, hentry⟩ := State.hearing_of ha _ hmoves
    refine ⟨_, congrArg Host.Outcome.next ?_, heffect, hentry, fun u hu => ?round⟩
    · show s.receive a (validStatus f) _ = _
      rw [hf]
      exact State.receive_hears h _
    case round =>
      obtain ⟨halike, hverdict⟩ := State.hearing_afterEntry (s := s) (a := a) _ hmoves
      rw [← hu] at halike hverdict
      have hmismatch := State.peerReports_mismatch (s := s) ha (f := f)
      have hmatch := State.peerReports_match (s := s) ha (f := f)
      clear hu hmoves heffect hentry
      generalize (s.toWait true).peerReports a f = t at *
      generalize ((s.toWait true).changePeer a fun e =>
        ((s.toWait true).refreshed e).applyStatus (s.toWait true).cfg.signature f) = x at *
      refine ⟨fun hq => ?ignored, fun hg ho => ?opened, fun hg hd hn => ?decided⟩
      case ignored =>
        by_cases hg : f.signature = s.cfg.signature
        · rw [hmatch hg]
          obtain hne | hidle | hdec := hq
          · exact absurd hg hne
          · rw [State.hearStatusRound, hidle]
            exact halike.roundAs
          · rw [State.hearStatusRound_decided (halike.round ▸ hdec)]
            exact halike.roundAs
        · rw [hmismatch hg]
          exact halike.roundAs
      case opened =>
        rw [hmatch hg, State.hearStatusRound, ho]
        exact State.hearOpenStatus_roundAs halike hverdict f
      case decided =>
        have hcommit : x.hearStatusRound a f = x.hearCommitment f.roundNumber none := by
          unfold State.hearStatusRound
          obtain hd | hd := hd <;> rw [hd]
        rw [hmatch hg, hcommit, State.hearCommitment_undecided (halike.round ▸ hn)]
        exact (halike.adopting _ _).roundAs

/-- Settles O29: the four kinds go the way of `viaRound`. -/
theorem roundFramesOnlyRefreshTheEntry : Obligations.RoundFramesOnlyRefreshTheEntry := by
  intro s a f h hv hk
  have ha := h.ne
  cases f with
  | propose r c x =>
    refine ⟨_, congrArg Host.Outcome.next ?_, State.hears_viaRound ha fun t => t.hearPropose_moves a r c x⟩
    rw [hv]
    exact State.receive_hears h _
  | vote r v =>
    exact ⟨_, congrArg Host.Outcome.next (State.receive_hears h _),
      State.hears_viaRound ha fun t => t.hearVote_moves a r v⟩
  | withdraw r =>
    exact ⟨_, congrArg Host.Outcome.next (State.receive_hears h _),
      State.hears_viaRound ha fun t => t.hearWithdraw_moves a r⟩
  | commit r cs =>
    exact ⟨_, congrArg Host.Outcome.next (State.receive_hears h _),
      State.hears_viaRound ha fun t => t.hearCommitment_moves r (some cs)⟩
  | join | status | alarm | ack | leave => simp [FrameOf.kind] at hk

/-- Settles O30: the refresh, and where a pair names this node one acknowledgement of the union. -/
theorem ackActsOnThePairsThatNameThisNode : Obligations.AckActsOnThePairsThatNameThisNode := by
  intro s a ps h hv
  have ha := h.ne
  have hexec : exec (.receiveAck a ps) s = .next ((s.toWait true).peerAcks a ps) := by
    show Host.Outcome.next (s.receive a (validFrame (.ack ps)) _) = _
    rw [hv, State.receive_hears h]
  refine ⟨_, hexec, ?_⟩
  obtain ⟨hx, hentry, hothers, hsup⟩ := s.hears_refresh ha
  have hpairs := (s.toWait true).member_pairsForOwn ps
  rw [State.toWait_own] at hpairs
  obtain ⟨hany, hcase⟩ | ⟨hany, hcase⟩ := (s.toWait true).peerAcks_cases a ps
  · have hround := s.hears_acknowledge ha ((s.toWait true).pairsForOwn ps)
    obtain ⟨hframe, hwatch, hkept, -, hsup'⟩ := ((s.toWait true).refreshPeer a).acknowledge_spec
      ((s.toWait true).pairsForOwn ps)
    rw [hcase]
    generalize (s.toWait true).pairsForOwn ps = set at *
    generalize (s.toWait true).refreshPeer a = x at *
    generalize x.acknowledge set = t at *
    have hown : x.own = s.own := by rw [hx]; rfl
    have hset : ∀ c, member set c = true ↔ ∃ p ∈ ps, p.station = s.own ∧ member p.channels c = true := by
      intro c
      rw [hpairs]
      simp
    refine ⟨fun c => ?_, (hkept a (hown ▸ ha)).trans hentry, hsup.trans hsup',
      fun b hba hbo => (hkept b (hown ▸ hbo)).trans (hothers b hba hbo), ?_, ?_⟩
    · have hk : x.channelCfg c = s.channelCfg c := by rw [hx]; rfl
      have hw : x.watch c = s.watch c := by rw [hx]; rfl
      rw [hwatch, State.acknowledged, hk, hw]
      simp only [hset]
    · refine hframe.trans ?_
      have heligible : t.eligible = x.eligible := by rw [hframe]
      rw [heligible, hx]
    · have hsets : (fun c => member set c)
          = fun c => ps.any fun p => p.station == s.own && member p.channels c := funext hpairs
      rwa [hsets] at hround
  · obtain ⟨-, hround, -⟩ := State.hearing_change ha s.refreshed
    rw [State.toWait_own] at hany
    rw [hcase]
    have hrefresh : (s.toWait true).changePeer a s.refreshed = (s.toWait true).refreshPeer a := rfl
    rw [hrefresh] at hround
    generalize (s.toWait true).refreshPeer a = x at *
    have hnone := any_pair_of_none hany
    obtain ⟨-, hstanding, -⟩ := s.afterEntry_keeps x a
    refine ⟨fun c => ?_, hentry, hsup, hothers, ?_, ?_⟩
    · have hw : x.watch c = s.watch c := by rw [hx]; rfl
      refine hw.trans (if_neg fun ⟨⟨p, hp, hs, _⟩, _⟩ => ?_).symm
      have hsome : ps.any (·.station == s.own) = true := List.any_eq_true.mpr ⟨p, hp, beq_iff_eq.mpr hs⟩
      rw [hany] at hsome
      exact Bool.noConfusion hsome
    · have hchannels : x.channels = s.channels := by rw [hx]
      have hverdict : x.standing = s.standing := by rw [hx]
      rw [hchannels, hverdict]
      exact hx
    · have hverdict : s.standing = (s.afterEntry x a).standing := by rw [hstanding, hx]
      rw [State.ackRecords_none hnone, State.reporting_nil, hverdict, State.verdictTurns_same]
      exact hround

/-- Settles O31: the receiver passes to WAIT, and the conflict is the passage of 09. -/
theorem ownAddressHeardIsAConflict : Obligations.OwnAddressHeardIsAConflict := by
  intro s a f hrec hown hr ha hv
  obtain ⟨deliver, hexec⟩ := exec_receiveCommand s a f
  rw [hexec, hv, State.receive_own deliver hrec hown hr ha]
  refine ⟨fun hq => congrArg Host.Outcome.next ?_, fun hc hq => ⟨(s.toWait true).leaveFor .conflict,
    congrArg Host.Outcome.next ?_, ?_⟩⟩
  · unfold State.addressConflict
    rw [State.toWait_life]
    obtain hq | hq := hq <;> rw [hq] <;> rfl
  · unfold State.addressConflict
    rw [State.toWait_life]
    cases hn : s.life.nodeState with
    | listening | joining | active | linkOff => rfl
    | conflict => exact absurd hn hc
    | quiet => exact absurd hn hq
    | loading | configFault => simp [State.running, hn, NodeState.runs] at hr
  · obtain ⟨hframe, hcounted, hsup, -⟩ := (s.toWait true).leaveFor_spec (n := .conflict) (by decide)
    exact ⟨hframe, hcounted, hsup⟩

/-- Settles O32: one passage of the receiver, and nothing else. -/
theorem undeliveredFramesHaveNoEffect : Obligations.UndeliveredFramesHaveNoEffect := by
  intro s a f w cause hrec
  refine ⟨congrArg Host.Outcome.next (if_pos hrec), congrArg Host.Outcome.next (if_pos hrec), fun h => ?_⟩
  obtain ⟨deliver, hexec⟩ := exec_receiveCommand s a f
  rw [hexec, State.receive_undelivered a _ deliver hrec h]
  rfl

end Sys2Proof.Machine

/-! # The round's commands: PROPOSE, VOTE, WITHDRAW, COMMIT, the commit test and the deadlines (02) -/

namespace Sys2Proof.Machine

section
variable {s : State} {a : Station}

/-! ### A round frame taken after the refresh (R16, R18, R23) -/

/-- Where the refresh leads to no commitment, the Round Controller finds its record, queue and latch as they were. -/
theorem State.hears_quiet (h : s.RefreshIsQuiet a ∨ s.round.state ≠ .opened) :
    ((s.toWait true).refreshPeer a).round = s.round ∧ ((s.toWait true).refreshPeer a).queue = s.queue
      ∧ ((s.toWait true).refreshPeer a).shutdownLatch = s.shutdownLatch := by
  obtain h | h := h
  · exact State.refreshPeer_quiet (s := s.toWait true) h
  · exact (s.toWait true).changePeer_notOpen a _ h

/-- In an ACTIVE node a quiet refresh changes nothing that the Round Controller reads. -/
theorem State.hears_quiet_alike (ha : s.isActive = true) (h : s.RefreshIsQuiet a) :
    ((s.toWait true).refreshPeer a).Alike s := by
  obtain hn | ⟨hc, hp⟩ := h
  · exact absurd (ha.symm.trans hn) (by decide)
  obtain ⟨hround, hqueue, hlatch⟩ := State.hears_quiet (s := s) (.inl (.inr ⟨hc, hp⟩))
  have heligible : ((s.toWait true).refreshPeer a).eligible = s.eligible :=
    State.refreshPeer_eligible (s := s.toWait true) hc hp
  have hsig := fun b => (s.toWait true).refreshPeer_signatureState a b
  have hx := (s.toWait true).changePeer_frame a s.refreshed
  have hrefresh : (s.toWait true).changePeer a s.refreshed = (s.toWait true).refreshPeer a := rfl
  rw [hrefresh] at hx
  generalize (s.toWait true).refreshPeer a = x at *
  exact ⟨⟨by rw [hx]; rfl, by rw [hx]; rfl, by rw [hx]; rfl, heligible, hsig, hround, hqueue, hlatch, by rw [hx]; rfl⟩,
    by rw [hx]; rfl, by rw [hx]; rfl⟩

/-- What the refresh leaves as it was, whatever follows it. -/
theorem State.hears_refresh_keeps (ha : a ≠ s.own) :
    ((s.toWait true).refreshPeer a).isActive = s.isActive
      ∧ ((s.toWait true).refreshPeer a).nodeCritical = s.nodeCritical
      ∧ ((s.toWait true).refreshPeer a).standing = s.standing ∧ ((s.toWait true).refreshPeer a).now = s.now
      ∧ ((s.toWait true).refreshPeer a).cfg = s.cfg := by
  obtain ⟨hx, -⟩ := s.hears_refresh ha
  generalize (s.toWait true).refreshPeer a = x at *
  rw [hx]
  exact ⟨rfl, rfl, rfl, rfl, rfl⟩

/-- A round frame of a MISMATCH sender is ignored; that of another is taken by the Round Controller in a state that agrees
with the one in which the entry has changed. -/
theorem State.hears_roundAs {g : State → State} (hg : ∀ t : State, t.RoundMoves (g t)) {u : State}
    (hu : u = s.afterEntry ((s.toWait true).viaRound a g) a) :
    ((s.peer a).signatureState = .mismatch → ((s.toWait true).viaRound a g).RoundAs u)
      ∧ ((s.peer a).signatureState ≠ .mismatch →
        ∃ x : State, (s.toWait true).viaRound a g = g x ∧ x.Alike u ∧ x.standing = u.standing) := by
  obtain ⟨halike, hverdict⟩ :=
    State.hearing_afterEntry (s := s) (a := a) s.refreshed ((s.toWait true).viaRound_moves a g hg)
  rw [← hu] at halike hverdict
  refine ⟨fun hm => ?_, fun hm => ⟨_, State.viaRound_counts (s := s.toWait true) g hm, halike, hverdict⟩⟩
  rw [State.viaRound_ignored (s := s.toWait true) g hm]
  exact halike.roundAs

/-! ### What each frame does to a record, state by state (R27 to R32, R39, R42) -/

theorem State.hearPropose_idle (h : s.round.state = .idle) (r : Byte) (c : Channel) (x : HalfDegrees) :
    s.hearPropose a r c x = if r = s.round.lastClosed then s else s.openFromPropose a r c x := by
  simp only [State.hearPropose, h]

theorem State.hearPropose_open (h : s.round.state = .opened) (r : Byte) (c : Channel) (x : HalfDegrees) :
    s.hearPropose a r c x =
      if r = s.round.number then
        (s.storeRound { s.round with proposers := insertMember s.round.proposers a }).recordVote a .concur
      else if newerRound r s.round.number then s.abandon.openFromPropose a r c x else s := by
  simp only [State.hearPropose, h]

theorem State.hearPropose_decided (h : s.round.state = .committed ∨ s.round.state = .halted) (r : Byte) (c : Channel)
    (x : HalfDegrees) : s.hearPropose a r c x = s := by
  unfold State.hearPropose
  obtain h | h := h <;> simp only [h]

theorem State.hearVote_counts (r : Byte) (v : Verdict) (ho : s.round.state = .opened) (hr : r = s.round.number) :
    s.hearVote a r v = s.recordVote a v := if_pos ⟨ho, hr⟩

theorem State.hearVote_ignored (r : Byte) (v : Verdict) (h : s.round.state ≠ .opened ∨ r ≠ s.round.number) :
    s.hearVote a r v = s := by
  refine if_neg fun ⟨ho, hr⟩ => ?_
  obtain h | h := h
  · exact h ho
  · exact h hr

theorem State.hearWithdraw_counts (r : Byte) (ho : s.round.state = .opened) (hr : r = s.round.number)
    (hm : member s.round.proposers a = true) : s.hearWithdraw a r = s.dropProposer a := if_pos ⟨ho, hr, hm⟩

theorem State.hearWithdraw_ignored (r : Byte)
    (h : s.round.state ≠ .opened ∨ r ≠ s.round.number ∨ member s.round.proposers a = false) :
    s.hearWithdraw a r = s := by
  refine if_neg fun ⟨ho, hr, hm⟩ => ?_
  obtain h | h | h := h
  · exact h ho
  · exact h hr
  · exact Bool.noConfusion (hm.symm.trans h)

theorem State.dropProposer_some (h : removeMember s.round.proposers a ≠ 0) :
    s.dropProposer a = s.storeRound { s.round with proposers := removeMember s.round.proposers a } := if_neg h

theorem State.dropProposer_none (h : removeMember s.round.proposers a = 0) : s.dropProposer a = s.abandon.propose :=
  if_pos h

/-! ### Abandoning, and what follows it (R24, R40, R41) -/

theorem State.abandon_round_state (s : State) : s.abandon.round.state = .idle := by
  rw [s.abandon_spec]
  rfl

/-- After an abandonment the node proposes where it is ACTIVE and critical, and else leaves the record IDLE. -/
theorem State.abandon_propose (s : State) :
    s.abandon.propose = if (s.isActive && s.nodeCritical) = true then s.abandon.openOwn else s.abandon := by
  have hactive : s.abandon.isActive = s.isActive := s.abandon_moves.isActive
  have hcritical : s.abandon.nodeCritical = s.nodeCritical := State.nodeCritical_congr s.abandon_moves.channels
  unfold State.propose
  rw [State.proposalTest_idle _ s.abandon_round_state, hactive, hcritical, s.abandon_round_state]

theorem State.abandon_propose_lastClosed (s : State) : s.abandon.propose.round.lastClosed = s.round.number := by
  have hclosed : s.abandon.round.lastClosed = s.round.number := by
    rw [s.abandon_spec]
    rfl
  rw [State.abandon_propose]
  split
  · exact s.abandon.openOwn_opensAs.lastClosed.trans hclosed
  · exact hclosed

/-! ### A commitment forces the fans (R93, R94) -/

theorem TargetsCurrent.decided (h : TargetsCurrent s) (hd : s.round.state = .committed ∨ s.round.state = .halted)
    (f : FanId) : (s.fan f).target = 255 := by
  obtain ⟨ht, -⟩ := h f
  rw [ht, State.targetNow_decided s f hd]

/-- A commitment is COMMITTED, or HALTED at once with a grace interval of 0 (R45). -/
theorem decided_of_grace (n : Nat) :
    (if n = 0 then RoundState.halted else .committed) = .committed
      ∨ (if n = 0 then RoundState.halted else .committed) = .halted := by
  split
  · exact .inr rfl
  · exact .inl rfl

/-- This node's own tally leaves the targets current (R47, R93). -/
theorem State.commitTest_current (ha : s.isActive = true) (ho : s.round.state = .opened)
    (hq : s.quorum ≤ s.concurCount) : TargetsCurrent s.commitTest := by
  have hc : s.commitTest = s.commitByTally := if_pos ⟨ha, ho, hq⟩
  rw [hc]
  refine (State.graceAtOnce_moves _).targets ?_
  refine (State.offer_moves _ _ (.inr (.inr (.inr rfl)))).targets ?_
  refine (State.purge_moves _ _ isUndecidedRound_leave).targets ?_
  apply State.storeRound_current
  rw [ho]
  exact RoundState.noConfusion

/-- The concur set of a tally (R37). -/
theorem State.member_tally (ha : s.isActive = true) {set : StationSet} (h : s.tallyRecord.concurSet = some set)
    (b : Station) : member set b = true ↔
      member s.concurring b = true ∨ (b = s.own ∧ s.round.ownVerdict = some .concur) := by
  have hset : (if s.ownConcurs then insertMember s.concurring s.own else s.concurring) = set := Option.some.inj h
  have hown : s.ownConcurs = true ↔ s.round.ownVerdict = some .concur := by simp [State.ownConcurs, ha]
  rw [← hset]
  split
  case isTrue ho =>
    rw [member_insert, Bool.or_eq_true, decide_eq_true_iff, eq_comm (a := s.own), and_iff_left (hown.mp ho)]
  case isFalse ho => simp [mt hown.mpr ho]

/-- The grace interval runs out: the latch, the record, and the own entry's flag (R45). -/
theorem State.halt_spec (s : State) :
    s.halt = { s with
        round := { s.round with state := .halted, graceDeadline := none }
        shutdownLatch := true
        peers := s.halt.peers
        fanA := s.halt.fanA
        fanB := s.halt.fanB }
      ∧ s.halt.peer s.own = { s.peer s.own with shutdownHeld := true } := by
  have hpeers : s.halt.peers = ({ s with shutdownLatch := true } : State).mirrorLatch.peers := by
    unfold State.halt
    rw [State.recomputeTargets_peers, State.storeRound_peers]
  constructor
  · unfold State.halt
    rw [State.storeRound_frame]
    rfl
  · rw [State.peer, hpeers]
    exact State.updateOwn_peer_own { s with shutdownLatch := true } _

end

/-- Settles O33: the record found IDLE, then every record, by the number the PROPOSE names. -/
theorem proposeOpensARound : Obligations.ProposeOpensARound := by
  have hexec : ∀ {s : State} {a : Station} {x : HalfDegrees}, s.Hears a → legalReading x = true →
      ∀ r c, exec (.receivePropose a r c x) s = .next ((s.toWait true).viaRound a (State.hearPropose a r c x)) := by
    intro s a x h hx r c
    show Host.Outcome.next (s.receive a (legalReading x) _) = _
    rw [hx, State.receive_hears h]
  refine ⟨fun s a r c x h hx hi => ⟨fun hm hr => ?opens, fun hq => ?ignored⟩,
    fun s a r c x h hx => ⟨_, hexec h hx r c, fun u hu => ?every⟩⟩
  case opens =>
    refine ⟨_, hexec h hx r c, ?_⟩
    obtain ⟨hround, -⟩ := State.hears_quiet (a := a) (.inr (by rw [hi]; exact RoundState.noConfusion))
    obtain ⟨hactive, -, hstanding, hnow, hcfg⟩ := s.hears_refresh_keeps h.ne
    rw [State.viaRound_counts (s := s.toWait true) _ hm]
    generalize (s.toWait true).refreshPeer a = y at *
    rw [State.hearPropose_idle (hround ▸ hi), if_neg (hround ▸ hr)]
    unfold State.openFromPropose
    obtain ⟨hnumber, hclosed, hreason, hvotes, hstate, -⟩ := State.openHeard_opensAs y (y.heardRoundRecord r (single a) a
      (some .concur) (some { station := a, channel := c, reading := x })) rfl
    refine ⟨hnumber, hstate, ?_, hclosed.trans (by rw [← hround]; rfl), hreason, fun hn => ?_⟩
    · rw [hvotes]
      exact Vector.getElem_set_self _
    · rw [State.openHeard_notActive _ _ (hactive.trans hn)]
      unfold State.heardRoundRecord StartImage.roundTimeout
      rw [hround, hstanding, hnow, hcfg]
  case ignored =>
    refine ⟨_, hexec h hx r c, ?_⟩
    obtain ⟨hround, -⟩ := State.hears_quiet (a := a) (.inr (by rw [hi]; exact RoundState.noConfusion))
    by_cases hm : (s.peer a).signatureState = .mismatch
    · rw [State.viaRound_ignored (s := s.toWait true) _ hm, hround]
    · rw [State.viaRound_counts (s := s.toWait true) _ hm, State.hearPropose_idle (hround ▸ hi),
        if_pos (hround ▸ hq.resolve_left hm), hround]
  case every =>
    obtain ⟨hmismatch, htaken⟩ := State.hears_roundAs (fun t => t.hearPropose_moves a r c x) hu
    by_cases hm : (s.peer a).signatureState = .mismatch
    · exact ⟨fun _ => hmismatch hm, fun hn => absurd hm hn⟩
    obtain ⟨y, hy, halike, hverdict⟩ := htaken hm
    rw [hy]
    refine ⟨fun hq => ?_, fun _ => ⟨fun hi he => ?_, fun hi hn => ?_, fun ho he => ?_, fun ho hn =>
      ⟨fun hle => ?_, fun hlt => ?_⟩⟩⟩
    · rw [State.hearPropose_decided (halike.round ▸ hq.resolve_left hm)]
      exact halike.roundAs
    · rw [State.hearPropose_idle (halike.round ▸ hi), if_pos (halike.round ▸ he)]
      exact halike.roundAs
    · rw [State.hearPropose_idle (halike.round ▸ hi), if_neg (halike.round ▸ hn)]
      exact (halike.proposedBy hverdict a r c x).roundAs
    · rw [State.hearPropose_open (halike.round ▸ ho), if_pos (halike.round ▸ he), halike.round]
      exact ((halike.storeRound _).recording a .concur).roundAs
    · rw [State.hearPropose_open (halike.round ▸ ho), halike.round, if_neg hn, if_pos ((newerRound_iff hn).mpr hle)]
      exact (halike.abandoning.proposedBy (State.abandon_standing hverdict) a r c x).roundAs
    · rw [State.hearPropose_open (halike.round ▸ ho), halike.round, if_neg hn,
        if_neg fun hnew => Nat.not_le.mpr hlt ((newerRound_iff hn).mp hnew)]
      exact halike.roundAs

/-- Settles O34: the vote recorded and counted, on the record as it was and on the record the refresh leaves. -/
theorem voteIsRecordedAndCounted : Obligations.VoteIsRecordedAndCounted := by
  intro s a r v h
  have hexec : exec (.receiveVote a r v) s = .next ((s.toWait true).viaRound a (State.hearVote a r v)) :=
    congrArg Host.Outcome.next (State.receive_hears h _)
  refine ⟨_, hexec, fun hquiet => ⟨fun hq => ?ignored, fun ho hr hm s' hs' => ?recorded⟩, fun u hu => ?every⟩
  case ignored =>
    obtain ⟨hround, -⟩ := State.hears_quiet hquiet
    by_cases hm : (s.peer a).signatureState = .mismatch
    · rw [State.viaRound_ignored (s := s.toWait true) _ hm, hround]
    · have hother : s.round.state ≠ .opened ∨ r ≠ s.round.number :=
        hq.imp_right fun hq => hq.resolve_right hm
      rw [State.viaRound_counts (s := s.toWait true) _ hm, State.hearVote_ignored r v (hround ▸ hother), hround]
  case recorded =>
    obtain ⟨hround, -⟩ := State.hears_quiet hquiet
    obtain ⟨hactive, -⟩ := s.hears_refresh_keeps h.ne
    have hstored : s.recording a v = s'.commitTest := by rw [hs']; rfl
    have hopen : s'.round.state = .opened := by rw [hs']; exact ho
    have hnumber : s'.round.number = r := by rw [hs']; exact hr.symm
    have hisActive : s'.isActive = s.isActive := by rw [hs']; rfl
    rw [State.viaRound_counts (s := s.toWait true) _ hm, State.hearVote_counts r v (hround ▸ ho) (hround ▸ hr)]
    cases ha : s.isActive with
    | false =>
      refine ⟨fun _ => ?_, fun ht => absurd ht (by decide)⟩
      unfold State.recordVote
      rw [State.commitTest_fails _ (.inl ((State.storeRound_isActive _ _).trans (hactive.trans ha))),
        State.storeRound_round, hround, hs']
      rfl
    | true =>
      have halike := (State.hears_quiet_alike ha (hquiet.resolve_right fun hn => hn ho)).recording a v
      rw [halike.round, hstored]
      refine ⟨fun hlt => ?_, fun _ hq => ?_⟩
      · rw [State.commitTest_fails _ (.inr (.inr (hlt.resolve_left (by decide))))]
      · obtain ⟨set, -, hcommit, -⟩ := s'.commitTest_commits (hisActive.trans ha) hopen hq
        rw [hcommit]
        exact ⟨decided_of_grace _, hnumber, rfl⟩
  case every =>
    obtain ⟨hmismatch, htaken⟩ := State.hears_roundAs (fun t => t.hearVote_moves a r v) hu
    by_cases hm : (s.peer a).signatureState = .mismatch
    · exact ⟨fun _ => hmismatch hm, fun hn => absurd hm hn⟩
    obtain ⟨y, hy, halike, -⟩ := htaken hm
    rw [hy]
    refine ⟨fun hq => ?_, fun _ ho hr => ?_⟩
    · rw [State.hearVote_ignored r v (halike.round ▸ hq.resolve_left hm)]
      exact halike.roundAs
    · rw [State.hearVote_counts r v (halike.round ▸ ho) (halike.round ▸ hr)]
      exact (halike.recording a v).roundAs

/-- Settles O35: the test that fails, and the tally. -/
theorem commitTestDecidesAtTheQuorum : Obligations.CommitTestDecidesAtTheQuorum := by
  intro s
  refine ⟨s.commitTest_fails, fun ha ho hq => ?_⟩
  obtain ⟨set, hset, hround, hlatch, hqueue⟩ := s.commitTest_commits ha ho hq
  exact ⟨set, State.member_tally ha hset, hround, hlatch, hqueue, State.commitTest_current ha ho hq,
    s.commitTest_frame⟩

/-- Settles O36: the adoption on the record as it was, and on the record the refresh leaves. -/
theorem commitIsAdopted : Obligations.CommitIsAdopted := by
  have hexec : ∀ {s : State} {a : Station}, s.Hears a → ∀ r cs, exec (.receiveCommit a r cs) s
      = .next ((s.toWait true).viaRound a (State.hearCommitment r (some cs))) := fun h _ _ =>
    congrArg Host.Outcome.next (State.receive_hears h _)
  refine ⟨fun s a r cs h hs => ⟨fun hm => ⟨_, hexec h r cs, ?adopted⟩, fun hm => ⟨_, hexec h r cs, ?ignored⟩⟩,
    fun s a r cs h => ⟨_, hexec h r cs, fun u hu => ?every⟩⟩
  case adopted =>
    have hundecided : s.round.state = .idle ∨ s.round.state = .opened := hs.imp_right And.left
    obtain ⟨hround, hqueue, hlatch⟩ := State.hears_quiet (s := s) (a := a)
      (hs.elim (fun hi => .inr (by rw [hi]; exact RoundState.noConfusion)) fun ho => .inl ho.2)
    obtain ⟨-, -, -, hnow, hcfg⟩ := s.hears_refresh_keeps h.ne
    rw [State.viaRound_counts (s := s.toWait true) _ hm]
    generalize (s.toWait true).refreshPeer a = y at *
    rw [State.hearCommitment_undecided (hround ▸ hundecided)]
    obtain ⟨hr, hl, hq⟩ := y.adopt_spec r (some cs)
    have hcurrent := y.adopt_current r (some cs) (hround ▸ hundecided)
    have hdecided : (y.adopt r (some cs)).round.state = .committed ∨ (y.adopt r (some cs)).round.state = .halted := by
      rw [hr]
      exact decided_of_grace _
    refine ⟨?_, by rw [hl, hlatch, hcfg], by rw [hq, hqueue], hcurrent.decided hdecided⟩
    rw [hr, State.adoptedRecord, hround, hcfg, hnow]
  case ignored =>
    obtain ⟨hround, -⟩ := State.hears_quiet (s := s) (a := a)
      (hs.elim (fun hi => .inr (by rw [hi]; exact RoundState.noConfusion)) fun ho => .inl ho.2)
    rw [State.viaRound_ignored (s := s.toWait true) _ hm, hround]
  case every =>
    obtain ⟨hmismatch, htaken⟩ := State.hears_roundAs (fun t => t.hearCommitment_moves r (some cs)) hu
    by_cases hm : (s.peer a).signatureState = .mismatch
    · exact ⟨fun _ => hmismatch hm, fun hn => absurd hm hn⟩
    obtain ⟨y, hy, halike, -⟩ := htaken hm
    rw [hy]
    refine ⟨fun hq => ?_, fun _ hn => ?_⟩
    · rw [State.hearCommitment_decided (halike.round ▸ hq.resolve_left hm)]
      exact halike.roundAs
    · rw [State.hearCommitment_undecided (halike.round ▸ hn)]
      exact (halike.adopting r (some cs)).roundAs

/-- Settles O37: the expiry halts, and `halt` ends in a recomputation of targets. -/
theorem graceDeadlineAssertsTheLatch : Obligations.GraceDeadlineAssertsTheLatch := by
  intro s hc hd
  obtain ⟨hframe, hown⟩ := s.halt_spec
  have hcurrent : TargetsCurrent s.halt := State.recomputeTargets_current _
  refine ⟨s.halt, congrArg Host.Outcome.next (if_pos ⟨hc, (expired_iff _ _).mpr hd⟩), hframe, hown, s.halt_moves.others,
    hcurrent.decided (.inr (by rw [hframe])), s.halt_moves.supervision⟩

/-- Settles O38: the round is abandoned, and the proposal test made on the IDLE record. -/
theorem roundDeadlineAbandonsTheRound : Obligations.RoundDeadlineAbandonsTheRound := by
  intro s ho hd
  refine ⟨s.abandon.propose, congrArg Host.Outcome.next (if_pos ⟨ho, (expired_iff _ _).mpr hd⟩),
    s.abandon_propose_lastClosed, fun hn => ?ends, fun hp => ?again⟩
  case ends =>
    rw [State.abandon_propose, if_neg (Bool.eq_false_iff.mp hn)]
    have hframe := s.abandon_spec
    have hround : s.abandon.round = s.round.abandoned := by rw [hframe]
    have hqueue : s.abandon.queue = s.queue.filter fun f => !isProposeOrVote f := by rw [hframe]
    refine ⟨hround, hqueue, ?_⟩
    rw [hround, hqueue]
    exact hframe
  case again =>
    rw [State.abandon_propose, if_pos hp]
    have hopens := s.abandon.openOwn_opensAs
    have hclosed : s.abandon.round.lastClosed = s.round.number := by rw [s.abandon_spec]; rfl
    refine ⟨hopens.number.trans (congrArg (· + 1) hclosed), hopens.state, hopens.concurs rfl,
      (State.Alike.refl s).abandoning.proposing.roundAs, ?_⟩
    exact (s.abandon_moves.trans s.abandon.openOwn_moves).frame

/-- Settles O39: the proposer leaves the set, on the record as it was and on the record the refresh leaves. -/
theorem withdrawRemovesAProposer : Obligations.WithdrawRemovesAProposer := by
  intro s a r h
  have hexec : exec (.receiveWithdraw a r) s = .next ((s.toWait true).viaRound a (State.hearWithdraw a r)) :=
    congrArg Host.Outcome.next (State.receive_hears h _)
  refine ⟨_, hexec, fun hquiet => ⟨fun hq => ?ignored, fun ho hr hp hm => ?taken⟩, fun u hu => ?every⟩
  case ignored =>
    obtain ⟨hround, -⟩ := State.hears_quiet hquiet
    by_cases hm : (s.peer a).signatureState = .mismatch
    · rw [State.viaRound_ignored (s := s.toWait true) _ hm, hround]
    · have hother : s.round.state ≠ .opened ∨ r ≠ s.round.number ∨ member s.round.proposers a = false :=
        hq.imp_right fun hq => hq.imp_right fun hq => hq.resolve_right hm
      rw [State.viaRound_counts (s := s.toWait true) _ hm, State.hearWithdraw_ignored r (hround ▸ hother), hround]
  case taken =>
    obtain ⟨hround, hqueue, -⟩ := State.hears_quiet hquiet
    obtain ⟨hactive, hcritical, -⟩ := s.hears_refresh_keeps h.ne
    rw [State.viaRound_counts (s := s.toWait true) _ hm]
    generalize (s.toWait true).refreshPeer a = y at *
    rw [State.hearWithdraw_counts r (hround ▸ ho) (hround ▸ hr) (hround ▸ hp)]
    refine ⟨fun hn => ?_, fun hz => ?_, fun hz hc => ?_⟩
    · rw [State.dropProposer_some (hround ▸ hn), State.storeRound_round, hround]
    · rw [State.dropProposer_none (hround ▸ hz), State.abandon_propose_lastClosed, hround, hr]
    · have hstays : y.abandon.propose = y.abandon := by
        rw [State.abandon_propose, hactive, hcritical, hc, if_neg Bool.false_ne_true]
      rw [State.dropProposer_none (hround ▸ hz), hstays, y.abandon_spec]
      exact ⟨rfl, rfl, congrArg (List.filter fun f => !isProposeOrVote f) hqueue⟩
  case every =>
    obtain ⟨hmismatch, htaken⟩ := State.hears_roundAs (fun t => t.hearWithdraw_moves a r) hu
    by_cases hm : (s.peer a).signatureState = .mismatch
    · exact ⟨fun _ => hmismatch hm, fun hn => absurd hm hn⟩
    obtain ⟨y, hy, halike, -⟩ := htaken hm
    rw [hy]
    refine ⟨fun hq => ?_, fun _ ho hr hp => ?_⟩
    · rw [State.hearWithdraw_ignored r (halike.round ▸ hq.resolve_left hm)]
      exact halike.roundAs
    rw [State.hearWithdraw_counts r (halike.round ▸ ho) (halike.round ▸ hr) (halike.round ▸ hp)]
    have hproposes := halike.abandoning.proposesIdle rfl
    have hactive : u.abandoning.isActive = u.isActive := rfl
    have hcritical : u.abandoning.nodeCritical = u.nodeCritical := rfl
    rw [hactive, hcritical] at hproposes
    refine ⟨fun hn => ?_, fun hz hc => ?_, fun hz ha hc => ?_⟩
    · rw [State.dropProposer_some (halike.round ▸ hn), halike.round]
      exact (halike.storeRound _).roundAs
    · rw [State.dropProposer_none (halike.round ▸ hz)]
      rw [if_neg (fun ⟨ha, hk⟩ => by simp [ha, hk] at hc)] at hproposes
      exact hproposes.roundAs
    · rw [State.dropProposer_none (halike.round ▸ hz)]
      rw [if_pos ⟨ha, hc⟩] at hproposes
      exact hproposes.roundAs

end Sys2Proof.Machine

/-! # The link, the head of the queue and the deadlines of the node state (07, 08, 09) -/

namespace Sys2Proof.Machine

section
variable {s : State}

/-! ### The beginning of a transmission (R128) -/

/-- A frame begins: the receiver follows where the wire carries the start mark (R127, R128, R139). -/
theorem State.beginFrame_idle (h : s.link.receiver = .idle) (wire : List Bool) (f : Pending) : s.beginFrame wire f =
    { s with
      queue := withoutKind s.queue f.kind
      link :=
        { s.link with
          inFlight := some (f.withStatus s.statusSnapshot)
          levels := wire
          receiver := if wire.head? = some false then .receiving else .idle
          ownOnWire := decide (wire.head? = some false) } } := by
  unfold State.beginFrame startMarkCarried
  by_cases hw : wire.head? = some false
  · simp [hw]
  · simp [hw, h]

theorem State.maySend_iff : s.maySend = true ↔ s.life.nodeState = .joining ∨ s.life.nodeState = .active := by
  simp [State.maySend]

end

/-! ### The head of the queue (R142) -/

theorem headEntry_cons_some {f g : Pending} {fs : List Pending} (h : headEntry fs = some g) :
    headEntry (f :: fs) = if f.kind.cls ≤ g.kind.cls then some f else some g := by
  simp only [headEntry, h]

theorem headEntry_cons_none {f : Pending} {fs : List Pending} (h : headEntry fs = none) :
    headEntry (f :: fs) = some f := by
  simp only [headEntry, h]

theorem headEntry_eq_none_iff (q : List Pending) : headEntry q = none ↔ q = [] := by
  constructor
  · intro h
    by_contra hq
    have hsome := headEntry_isSome hq
    rw [h] at hsome
    exact Bool.noConfusion hsome
  · rintro rfl
    rfl

/-- An entry that goes before every older and every younger one is the head. -/
theorem headEntry_of_split {f : Pending} {older younger : List Pending}
    (holder : ∀ g ∈ older, f.kind.cls < g.kind.cls) (hyounger : ∀ g ∈ younger, f.kind.cls ≤ g.kind.cls) :
    headEntry (older ++ f :: younger) = some f := by
  induction older with
  | nil =>
    cases h : headEntry younger with
    | none => exact headEntry_cons_none h
    | some g => rw [List.nil_append, headEntry_cons_some h, if_pos (hyounger g (headEntry_mem h))]
  | cons o os ih =>
    rw [List.cons_append, headEntry_cons_some (ih fun g hg => holder g (List.mem_cons_of_mem _ hg)),
      if_neg (Nat.not_le.mpr (holder o List.mem_cons_self))]

theorem headEntry_split {q : List Pending} {f : Pending} (h : headEntry q = some f) :
    ∃ older younger, q = older ++ f :: younger
      ∧ (∀ g ∈ older, f.kind.cls < g.kind.cls) ∧ (∀ g ∈ younger, f.kind.cls ≤ g.kind.cls) := by
  induction q generalizing f with
  | nil => exact nomatch h
  | cons e es ih =>
    cases hes : headEntry es with
    | none =>
      rw [headEntry_cons_none hes] at h
      obtain rfl := Option.some.inj h
      obtain rfl := (headEntry_eq_none_iff es).mp hes
      exact ⟨[], [], rfl, List.forall_mem_nil _, List.forall_mem_nil _⟩
    | some g =>
      rw [headEntry_cons_some hes] at h
      obtain ⟨older, younger, hsplit, holder, hyounger⟩ := ih hes
      split_ifs at h with hle
      · obtain rfl := Option.some.inj h
        refine ⟨[], es, rfl, List.forall_mem_nil _, fun x hx => hle.trans ?_⟩
        rw [hsplit, List.mem_append, List.mem_cons] at hx
        obtain hx | rfl | hx := hx
        · exact (holder x hx).le
        · exact le_rfl
        · exact hyounger x hx
      · obtain rfl := Option.some.inj h
        exact ⟨e :: older, younger, by rw [hsplit, List.cons_append],
          List.forall_mem_cons.mpr ⟨Nat.not_le.mp hle, holder⟩, hyounger⟩

/-! ### The levels read back (R130, R132) -/

/-- The key takes seven bit periods, and an eighth where a stuff bit falls within it (R126, R130): by the 128 keys. -/
theorem periods_key : ∀ (c : BitVec 3) (a : BitVec 4), periods false 1 (bitsOf c ++ bitsOf a)
    = if (c = 0 ∧ a.toNat < 4) ∨ (c = 7 ∧ 14 ≤ a.toNat) then 8 else 7 := by
  decide +kernel

/-- The first bit read that differs from the bit sent decides, within the key or outside it. -/
theorem readBack_differs (w : RawFrame) {same tail rest : List Bool} {sent got : Bool}
    (hw : wireBits w = false :: same ++ sent :: tail) (hne : got ≠ sent) :
    readBack w (false :: same ++ got :: rest)
      = if keyPeriods w - same.length = 0 then .faulted else if sent = true then .lost else .faulted := by
  rw [readBack_append w same (sent :: tail) (got :: rest) hw]
  cases sent <;> cases got
  · exact absurd rfl hne
  · by_cases hk : keyPeriods w - same.length = 0 <;> simp [readBackFrom, hk, bitOutcome, keyOutcome]
  · by_cases hk : keyPeriods w - same.length = 0 <;> simp [readBackFrom, hk, bitOutcome, keyOutcome]
  · exact absurd rfl hne

/-- Every frame begins with its start mark (R126). -/
theorem wireBits_head {w : RawFrame} {b : Bool} {l : List Bool} (h : wireBits w = b :: l) : b = false :=
  (List.cons.inj (h.symm.trans rfl : b :: l = false :: (stuff false 1 (fieldBits w) ++ endMark))).1

theorem readBack_first_differs (w : RawFrame) {read rest tail : List Bool} {sent got : Bool}
    (hw : wireBits w = read ++ sent :: tail) (hne : got ≠ sent) :
    (1 ≤ read.length → read.length ≤ keyPeriods w → sent = true → readBack w (read ++ got :: rest) = .lost)
      ∧ (1 ≤ read.length → read.length ≤ keyPeriods w → sent = false → readBack w (read ++ got :: rest) = .faulted)
      ∧ (read.length = 0 ∨ keyPeriods w < read.length → readBack w (read ++ got :: rest) = .faulted) := by
  cases read with
  | nil =>
    obtain rfl := wireBits_head hw
    have hgot : got = true := by simpa using hne
    rw [hgot]
    exact ⟨fun h => absurd h (by decide), fun h => absurd h (by decide), fun _ => rfl⟩
  | cons b same =>
    obtain rfl := wireBits_head hw
    rw [readBack_differs w hw hne, List.length_cons]
    refine ⟨fun _ hk hs => ?_, fun _ hk hs => ?_, fun hk => ?_⟩
    · rw [if_neg (by omega), if_pos hs]
    · rw [if_neg (by omega), if_neg (by simp [hs])]
    · rw [if_pos (by omega)]

theorem readBack_driving (w : RawFrame) {read rest : List Bool} (hw : wireBits w = read ++ rest) (hr : rest ≠ []) :
    readBack w read = .driving := by
  cases read with
  | nil => rfl
  | cons b same =>
    obtain rfl := wireBits_head hw
    have happend := readBack_append w same rest [] hw
    rw [List.append_nil] at happend
    obtain ⟨x, xs, rfl⟩ := List.exists_cons_of_ne_nil hr
    exact happend

/-! ### The frame in flight (R131, R133, R134) -/

section
variable {s : State} {f : Frame}

theorem exec_arbitrationLost (h : s.link.inFlight = some f) :
    exec .arbitrationLost s = .next (if s.readsBack f [] = Readback.lost then s.loseArbitration f else s) := by
  show Host.Outcome.next (match s.link.inFlight with
    | some f => if s.readsBack f [] = Readback.lost then s.loseArbitration f else s
    | none => s) = _
  rw [h]

theorem exec_transmitFault (h : s.link.inFlight = some f) (more : List Bool) :
    exec (.transmitFault more) s = .next (if s.readsBack f more = Readback.faulted then s.faultOn f else s) := by
  show Host.Outcome.next (match s.link.inFlight with
    | some f => if s.readsBack f more = Readback.faulted then s.faultOn f else s
    | none => s) = _
  rw [h]

/-- Below the limit a fault returns the frame (R133). -/
theorem State.faultOn_below (h : s.link.faults + 1 < 8) : s.faultOn f =
    { s with
      queue := returned s.queue f (s.isCurrent f)
      link := { s.link with inFlight := none, faults := s.link.faults + 1 } } := by
  have hmin : min (s.link.faults + 1) Config.faultLimit = s.link.faults + 1 := Nat.min_eq_left (Nat.le_of_lt h)
  have hcount : s.countFault = { s with link := { s.link with faults := s.link.faults + 1 } } := by
    unfold State.countFault
    rw [hmin]
  unfold State.faultOn
  rw [hcount]
  exact if_pos h

/-- At the limit the frame is discarded and the limit delivered (R133, R163). -/
theorem State.faultOn_limit (h : s.link.faults + 1 = 8) : s.faultOn f =
    ({ s with link := { s.link with inFlight := none, faults := 8 } } : State).faultLimit f.kind := by
  have hmin : min (s.link.faults + 1) Config.faultLimit = 8 := by rw [h]; rfl
  have hcount : s.countFault = { s with link := { s.link with faults := 8 } } := by
    unfold State.countFault
    rw [hmin]
  unfold State.faultOn
  dsimp only
  rw [hcount]
  exact if_neg (Nat.lt_irrefl 8)

/-- The state that the transmit fault limit leads to (R163). -/
theorem State.faultLimit_leaves (k : FrameKind) (h : s.life.nodeState = .joining ∨ s.life.nodeState = .active) :
    s.faultLimit k = s.leaveFor (if s.life.nodeState = .active ∧ (s.life.leavePending = true ∨ k = .leave)
      then .quiet else .linkOff) := by
  unfold State.faultLimit
  obtain h | h := h
  · simp [h]
  · rw [h]
    have hiff : (s.life.leavePending || k == .leave) = true ↔ s.life.leavePending = true ∨ k = .leave := by simp
    by_cases hl : s.life.leavePending = true ∨ k = .leave
    · simp only [if_pos (hiff.mpr hl), if_pos hl, true_and]
    · simp only [if_neg (mt hiff.mp hl), if_neg hl, true_and]

/-- The passage at the transmit fault limit, as `leaveFor` makes it. -/
theorem State.faultOn_limit_spec (hlimit : s.link.faults + 1 = 8)
    (hstate : s.life.nodeState = .joining ∨ s.life.nodeState = .active) :
    (s.faultOn f).life.nodeState
        = (if s.life.nodeState = .active ∧ (s.life.leavePending = true ∨ f.kind = .leave) then .quiet else .linkOff)
      ∧ (s.faultOn f).life.recoveryDeadline = (if (s.faultOn f).life.nodeState = .linkOff
        then some (s.now + 4 * (s.cfg.statCode * 250)) else none)
      ∧ (s.faultOn f).life.leavePending = false ∧ (s.faultOn f).queue = []
      ∧ (s.faultOn f).link = { s.link with inFlight := none, faults := 8 }
      ∧ s.faultOn f = { s with
          life := (s.faultOn f).life
          queue := (s.faultOn f).queue
          link := (s.faultOn f).link
          eligible := (s.faultOn f).eligible
          fanA := (s.faultOn f).fanA
          fanB := (s.faultOn f).fanB }
      ∧ (s.faultOn f).eligible = (s.faultOn f).eligibleNow ∧ s.SameSupervision (s.faultOn f) := by
  have hleaves := State.faultLimit_leaves
    (s := { s with link := { s.link with inFlight := none, faults := 8 } }) f.kind hstate
  rw [State.faultOn_limit hlimit, hleaves]
  dsimp only
  have hne : (if s.life.nodeState = .active ∧ (s.life.leavePending = true ∨ f.kind = .leave)
      then NodeState.quiet else .linkOff) ≠ .active := by
    split <;> exact NodeState.noConfusion
  generalize (if s.life.nodeState = .active ∧ (s.life.leavePending = true ∨ f.kind = .leave)
    then NodeState.quiet else .linkOff) = n at *
  obtain ⟨hframe, hcounted, hsup, -⟩ :=
    ({ s with link := { s.link with inFlight := none, faults := 8 } } : State).leaveFor_spec hne
  generalize State.leaveFor n { s with link := { s.link with inFlight := none, faults := 8 } } = t at *
  have hlife : t.life.nodeState = n := by rw [hframe]
  have hqueue : t.queue = [] := by rw [hframe]
  have hlink : t.link = { s.link with inFlight := none, faults := 8 } := by rw [hframe]
  have hrecovery : t.life.recoveryDeadline = if n = .linkOff then some (s.now + 4 * (s.cfg.statCode * 250)) else none := by
    rw [hframe]
    rfl
  refine ⟨hlife, by rw [hrecovery, hlife], by rw [hframe], hqueue, hlink, ?_, hcounted, hsup⟩
  have hl := congrArg State.life hframe
  dsimp only at hl
  rw [hqueue, hlink, hl]
  exact hframe

/-! ### Currency (R50) -/

theorem State.isCurrent_propose_iff {r : Byte} {c : Channel} {x : HalfDegrees} : s.isCurrent (.propose r c x) = true ↔
    s.round.state = .opened ∧ s.round.number = r ∧ member s.round.proposers s.own = true := by
  simp [State.isCurrent, and_assoc]

theorem State.isCurrent_vote_iff {r : Byte} {v : Verdict} : s.isCurrent (.vote r v) = true ↔
    s.round.state = .opened ∧ s.round.number = r := by
  simp [State.isCurrent]

theorem State.isCurrent_withdraw_iff {r : Byte} : s.isCurrent (.withdraw r) = true ↔
    (s.round.state = .opened ∧ s.round.number = r ∧ member s.round.proposers s.own = false)
      ∨ ((s.round.state = .idle ∨ s.round.state = .opened) ∧ s.round.lastClosed = r) := by
  simp [State.isCurrent, and_assoc]

end

/-- Settles O42: each of the three commands where its test holds. -/
theorem receiverMovesWithTheWire : Obligations.ReceiverMovesWithTheWire :=
  fun _ _ => ⟨fun hr hw hn => congrArg Host.Outcome.next (if_pos ⟨hr, hw, hn⟩),
    fun hi => congrArg Host.Outcome.next (if_pos hi),
    fun hrec hown hnone => congrArg Host.Outcome.next (if_pos ⟨hrec, hown, hnone⟩)⟩

/-- Settles O43: the tests of R128 hold, so the head begins; and the snapshot by the state of the record. -/
theorem transmissionTakesTheHead : Obligations.TransmissionTakesTheHead := by
  refine ⟨fun s wire f hidle hnone hsend hhead => ?begins, fun s g hg => ?snapshot⟩
  case snapshot =>
    unfold State.statusSnapshot
    dsimp only
    rw [hg]
    cases s.round.state <;> rfl
  rw [← State.beginFrame_idle hidle]
  show Host.Outcome.next (if s.link.receiver = .idle ∧ s.link.inFlight = none ∧ s.maySend then
      match headEntry s.queue with
      | some f => s.beginFrame wire f
      | none => s
    else s) = _
  rw [if_pos ⟨hidle, hnone, State.maySend_iff.mpr hsend⟩, hhead]

/-- Settles O44: the head of a list of the rest, entry by entry. -/
theorem headIsTheOldestOfTheLowestClass : Obligations.HeadIsTheOldestOfTheLowestClass := by
  refine fun q => ⟨headEntry_eq_none_iff q, fun f => ⟨headEntry_split, ?_⟩⟩
  rintro ⟨older, younger, rfl, holder, hyounger⟩
  exact headEntry_of_split holder hyounger

/-- Settles O45: the two commands by what the levels read back give, then the readback bit by bit, then currency. -/
theorem lostAndFaultedFramesReturnBelowTheLimit : Obligations.LostAndFaultedFramesReturnBelowTheLimit := by
  refine ⟨fun s f more hf => ⟨fun h => ?_, fun h => ?_, fun h => ?_, fun h hlt => ?_, fun h hlimit hstate => ?_⟩,
    fun w => periods_key w.cls w.source, rfl, rfl, rfl, rfl,
    fun s f more read rest sent got tail hread hwire hne => ?_, fun s f more rest => ⟨fun hwire hr => ?_, fun hread => ?_⟩,
    fun s r => ⟨fun c x => State.isCurrent_propose_iff, fun v => State.isCurrent_vote_iff, State.isCurrent_withdraw_iff,
      fun _ => rfl⟩⟩
  · rw [exec_arbitrationLost hf, if_pos h, State.loseArbitration_spec]
  · rw [exec_arbitrationLost hf, if_neg h]
  · rw [exec_transmitFault hf, if_neg h]
  · rw [exec_transmitFault hf, if_pos h, State.faultOn_below hlt]
  · rw [exec_transmitFault hf, if_pos h]
    exact ⟨_, rfl, State.faultOn_limit_spec hlimit hstate⟩
  · rw [State.readsBack, hread]
    exact readBack_first_differs _ hwire hne
  · exact readBack_driving _ hwire hr
  · rw [State.readsBack, hread]
    exact readBack_whole _ rest

/-- Settles O48: each deadline in its own node state. -/
theorem lifeDeadlinesMoveTheNodeState : Obligations.LifeDeadlinesMoveTheNodeState := by
  intro s
  refine ⟨fun hn hd => ⟨s.startJoining, congrArg Host.Outcome.next (if_pos ⟨hn, (expired_iff _ _).mpr hd⟩), ?_, ?_⟩,
    fun hn hd => ⟨s.recover, congrArg Host.Outcome.next (if_pos ⟨hn, (expired_iff _ _).mpr hd⟩), rfl, ?_⟩,
    fun hn hd => (congrArg Host.Outcome.next (if_pos ⟨hn, (expired_iff _ _).mpr hd⟩)).trans ?_⟩
  · rfl
  · intro f
    exact State.recomputeTargets_supervision _ f
  · intro f
    exact State.recomputeTargets_supervision _ f
  · unfold State.askStatus State.offer
    dsimp only
    rw [hn]
    rfl

end Sys2Proof.Machine

/-! # The frame that completes, and the entry into ACTIVE (07 R134, 02 R53, 09 R161) -/

namespace Sys2Proof.Machine

section
variable {s : State}

/-! ### A pending STATUS stays pending while the Round Controller acts (R48, R151) -/

/-- A STATUS is pending. -/
def State.StatusPending (s : State) : Prop := pendingKind s.queue .status = true

theorem State.StatusPending.of_queue {t : State} (h : s.StatusPending) (hq : t.queue = s.queue) : t.StatusPending := by
  rw [State.StatusPending, hq]
  exact h

theorem State.StatusPending.offer (h : s.StatusPending) {f : Pending} (hk : f.kind ≠ .status) :
    (s.offer f).StatusPending := by
  rw [State.StatusPending, State.offer_queue]
  split
  · rw [pendingKind_enqueue_ne _ _ hk]
    exact h
  · exact h

theorem State.StatusPending.purge (h : s.StatusPending) {p : Pending → Bool}
    (hp : ∀ f, f.kind = .status → p f = false) : (s.purge p).StatusPending := by
  obtain ⟨f, hf, hk⟩ := List.any_eq_true.mp h
  refine List.any_eq_true.mpr ⟨f, ?_, hk⟩
  rw [State.purge_queue]
  exact List.mem_filter.mpr ⟨hf, by rw [hp f (beq_iff_eq.mp hk)]; rfl⟩

theorem State.StatusPending.storeRound (h : s.StatusPending) (r : RoundRecord) : (s.storeRound r).StatusPending :=
  h.of_queue (s.storeRound_queue r)

theorem State.StatusPending.graceAtOnce (h : s.StatusPending) : s.graceAtOnce.StatusPending := by
  unfold State.graceAtOnce
  split
  · refine h.of_queue ?_
    rw [s.halt_spec.1]
  · exact h

theorem isUndecidedRound_status (f : Pending) (h : f.kind = .status) : isUndecidedRound f = false := by
  simp [isUndecidedRound, h]

theorem State.StatusPending.commitTest (h : s.StatusPending) : s.commitTest.StatusPending := by
  unfold State.commitTest
  split
  · exact (((h.storeRound _).purge isUndecidedRound_status).offer FrameKind.noConfusion).graceAtOnce
  · exact h

theorem State.StatusPending.coPropose (h : s.StatusPending) : s.coPropose.StatusPending := by
  have hqueued := ((h.storeRound { s.round with
    proposers := insertMember s.round.proposers s.own, ownVerdict := some .concur }).purge
      (p := fun f => f == .withdraw s.round.number) fun f hf =>
        beq_false_of_ne fun heq => FrameKind.noConfusion (hf.symm.trans (congrArg FrameOf.kind heq))).offer
        (f := s.proposeFrame s.round.number) FrameKind.noConfusion
  unfold State.coPropose
  dsimp only
  split
  · exact hqueued
  · exact hqueued.commitTest

theorem State.StatusPending.roundOpened (h : s.StatusPending) : s.roundOpened.StatusPending := by
  unfold State.roundOpened
  split
  · have hp := h.purge (p := fun f => f.kind == .leave) fun f hf => by rw [hf]; rfl
    dsimp only
    split
    · exact hp
    · exact hp.of_queue rfl
  · exact h

theorem State.StatusPending.propose (h : s.StatusPending) : s.propose.StatusPending := by
  unfold State.propose
  split
  · split
    · exact (((h.storeRound _).offer FrameKind.noConfusion).roundOpened).commitTest
    · exact h.coPropose
    · exact h
    · exact h
  · exact h

theorem State.StatusPending.answerOpening (h : s.StatusPending) : s.answerOpening.StatusPending := by
  unfold State.answerOpening
  split
  · exact h.coPropose
  · split
    · exact h.offer FrameKind.noConfusion
    · exact h

theorem State.StatusPending.roundEntersActive (h : s.StatusPending) : s.roundEntersActive.StatusPending := by
  unfold State.roundEntersActive
  split
  · exact h.propose
  · exact h.answerOpening.commitTest
  · exact h
  · exact h

theorem State.StatusPending.deliverEligible (h : s.StatusPending) (b : Bool) : (s.deliverEligible b).StatusPending := by
  have hcounted : ({ s with eligible := s.eligibleNow } : State).StatusPending := h
  unfold State.deliverEligible
  dsimp only
  split
  · exact hcounted.commitTest
  · exact hcounted

theorem State.StatusPending.takeEntry (h : s.StatusPending) (b : Bool) : (s.takeEntry b).StatusPending := by
  unfold State.takeEntry
  split
  · exact h.roundEntersActive.deliverEligible false
  · exact (h.deliverEligible false).roundEntersActive

/-! ### What the entry into ACTIVE leaves, in either order of its two deliveries (R18, R53) -/

/-- P is counted, and the Round Controller acts; nothing else changes but the targets. -/
theorem State.takeEntry_frame (s : State) (b : Bool) : s.takeEntry b = { s with
    eligible := (s.takeEntry b).eligible
    peers := (s.takeEntry b).peers
    round := (s.takeEntry b).round
    shutdownLatch := (s.takeEntry b).shutdownLatch
    fanA := (s.takeEntry b).fanA
    fanB := (s.takeEntry b).fanB
    queue := (s.takeEntry b).queue
    life := { s.life with leavePending := (s.takeEntry b).life.leavePending } } := by
  cases b with
  | false =>
    have hm := s.takeEntry_last_moves
    generalize s.takeEntry false = t at *
    have heligible : t.eligible = s.eligibleNow := hm.eligible
    refine hm.frame.trans ?_
    rw [heligible]
  | true =>
    obtain ⟨hfirst, hsecond⟩ := s.takeEntry_first_moves
    generalize s.takeEntry true = t at *
    generalize s.roundEntersActive = x at *
    have heligible : t.eligible = s.eligibleNow := hsecond.eligible
    refine hsecond.frame.trans ?_
    rw [heligible, hfirst.frame]

theorem State.takeEntry_eligible (s : State) (b : Bool) : (s.takeEntry b).eligible = s.eligibleNow := by
  cases b with
  | false => exact s.takeEntry_last_moves.eligible
  | true => exact s.takeEntry_first_moves.2.eligible

/-- A count of P on a record that is not IDLE leaves what an opening leaves. -/
theorem State.deliverEligible_opensAs (h : s.round.state ≠ .idle) (b : Bool) :
    s.round.OpensAs (s.deliverEligible b).round := by
  unfold State.deliverEligible
  dsimp only
  split
  · exact State.commitTest_opensAs' { s with eligible := s.eligibleNow } h
  · exact .refl h

/-- A critical node that becomes ACTIVE with an IDLE record proposes (R24, R53). -/
theorem State.roundEntersActive_proposes (ha : s.isActive = true) (hi : s.round.state = .idle)
    (hc : s.nodeCritical = true) : s.roundEntersActive = s.openOwn := by
  have ht : s.proposalTest = true := by rw [State.proposalTest_idle s hi, ha, hc]; rfl
  unfold State.roundEntersActive State.propose
  simp only [hi, ht, if_true]

theorem State.takeEntry_opensAs (ha : s.isActive = true) (hi : s.round.state = .idle) (hc : s.nodeCritical = true)
    (b : Bool) : (s.takeEntry b).round.number = s.round.lastClosed + 1 ∧ (s.takeEntry b).round.state ≠ .idle := by
  cases b with
  | false =>
    have hcounted : s.deliverEligible false = { s with eligible := s.eligibleNow } :=
      State.deliverEligible_notOpen _ _ (by rw [hi]; exact RoundState.noConfusion)
    have htaken : s.takeEntry false = ({ s with eligible := s.eligibleNow } : State).openOwn :=
      (congrArg State.roundEntersActive hcounted).trans
        (State.roundEntersActive_proposes (s := { s with eligible := s.eligibleNow }) ha hi hc)
    have hopens := ({ s with eligible := s.eligibleNow } : State).openOwn_opensAs
    rw [htaken]
    exact ⟨hopens.number, hopens.state⟩
  | true =>
    have htaken : s.takeEntry true = s.openOwn.deliverEligible false :=
      congrArg (State.deliverEligible false) (State.roundEntersActive_proposes ha hi hc)
    have hopens := s.openOwn_opensAs.trans (State.deliverEligible_opensAs s.openOwn_opensAs.state false)
    rw [htaken]
    exact ⟨hopens.number, hopens.state⟩

/-! ### The two deliveries in the words of the round rules (R18, R24, R53) -/

/-- A count of P on a record that is not OPEN is no more than a count. -/
theorem State.counting_notOpen (h : s.round.state ≠ .opened) (p : Nat) : (s.counting p).RoundAs s := by
  unfold State.counting
  split
  · exact ⟨rfl, rfl, rfl, rfl⟩
  · rw [State.commitTest_fails { s with eligible := p } (.inr (.inl h))]
    exact ⟨rfl, rfl, rfl, rfl⟩

/-- The entry leaves an IDLE record of a node that is not critical, and a decided one. -/
theorem State.entering_keeps (h : (s.round.state = .idle ∧ s.nodeCritical = false) ∨ s.round.state = .committed
    ∨ s.round.state = .halted) : s.entering = s := by
  unfold State.entering
  obtain ⟨hi, hc⟩ | h | h := h
  · simp [hi, hc]
  · simp [h]
  · simp [h]

theorem State.RoundAs.trans {t u : State} (h : s.RoundAs t) (k : t.RoundAs u) : s.RoundAs u := by
  obtain ⟨hround, hqueue, hlatch, hflag⟩ := h
  obtain ⟨hround', hqueue', hlatch', hflag'⟩ := k
  exact ⟨hround.trans hround', hqueue.trans hqueue', hlatch.trans hlatch', hflag.trans hflag'⟩

/-! ### The entry into ACTIVE as a completed JOIN brings it (R161) -/

/-- The state in which the two deliveries are made: ACTIVE, with its status deadline and a STATUS asked for. -/
def State.entered (s : State) : State :=
  { s with
    life := { s.life with nodeState := .active, statusDeadline := some (s.now + s.cfg.statCode * 250) }
    queue := if pendingKind s.queue .status then s.queue else s.queue ++ [.status ()]
    choices := s.choices + 1 }

theorem State.enterActive_eq (s : State) :
    s.enterActive = (s.entered.takeEntry (Config.roundTakesEntryFirst s.choices)).recomputeTargets := rfl

theorem State.entered_statusPending (s : State) : s.entered.StatusPending := by
  unfold State.StatusPending State.entered
  dsimp only
  split
  case isTrue h => exact h
  case isFalse => simp [pendingKind, FrameOf.kind]

/-- What the entry into ACTIVE leaves. -/
theorem State.enterActive_spec (s : State) :
    s.enterActive.link = s.link ∧ s.enterActive.life.nodeState = .active
      ∧ s.enterActive.life.statusDeadline = some (s.now + s.cfg.statCode * 250)
      ∧ pendingKind s.enterActive.queue .status = true ∧ s.enterActive.eligible = s.enterActive.eligibleNow
      ∧ s.enterActive = { s with
          life := s.enterActive.life
          queue := s.enterActive.queue
          eligible := s.enterActive.eligible
          peers := s.enterActive.peers
          round := s.enterActive.round
          shutdownLatch := s.enterActive.shutdownLatch
          fanA := s.enterActive.fanA
          fanB := s.enterActive.fanB
          choices := s.choices + 1 } := by
  rw [State.enterActive_eq]
  generalize Config.roundTakesEntryFirst s.choices = b
  have hstatus := s.entered_statusPending.takeEntry b
  have hcounted := (s.entered.takeEntry_counted b).moves (State.recomputeTargets_moves _)
  have hframe := s.entered.takeEntry_frame b
  generalize s.entered.takeEntry b = t at *
  have hlife : t.life = { s.entered.life with leavePending := t.life.leavePending } := by
    rw [hframe]
  have hlink : t.link = s.link := by rw [hframe]; rfl
  have hnow : t.now = s.now := by rw [hframe]; rfl
  refine ⟨?_, ?_, ?_, ?_, hcounted, ?_⟩
  · rw [State.recomputeTargets_link, hlink]
  · rw [State.recomputeTargets_life, hlife]
    rfl
  · rw [State.recomputeTargets_life, hlife]
    rfl
  · rw [State.recomputeTargets_queue]
    exact hstatus
  · show ({ t with fanA := _, fanB := _ } : State) = _
    rw [State.recomputeTargets_life, State.recomputeTargets_queue, State.recomputeTargets_eligible,
      State.recomputeTargets_peers, State.recomputeTargets_round, State.recomputeTargets_shutdownLatch]
    have hfanA : t.recomputeTargets.fanA = t.retarget .a := rfl
    have hfanB : t.recomputeTargets.fanB = t.retarget .b := rfl
    rw [hfanA, hfanB]
    generalize t.retarget .a = x
    generalize t.retarget .b = y
    rw [hframe]
    rfl

/-- The entry into ACTIVE in the words of the round rules. -/
theorem State.enterActive_roundAs {u : State} (hu : s.entered.Alike u) :
    ((u.round.state = .idle ∧ u.nodeCritical = false) ∨ u.round.state = .committed ∨ u.round.state = .halted →
        s.enterActive.RoundAs u)
      ∧ ((u.round.state = .opened → u.round.ownVerdict.isSome = true) →
        s.enterActive.RoundAs (u.entering.counting s.enterActive.eligible)
          ∨ s.enterActive.RoundAs (u.counting s.enterActive.eligible).entering) := by
  have hactive : u.isActive = true := by
    rw [← hu.isActive]
    rfl
  rw [State.enterActive_eq, State.recomputeTargets_eligible, State.takeEntry_eligible]
  generalize Config.roundTakesEntryFirst s.choices = b
  have hround : ∀ {v : State}, (s.entered.takeEntry b).RoundAs v → (s.entered.takeEntry b).recomputeTargets.RoundAs v :=
    fun h => h
  refine ⟨fun hq => hround ?_, fun hv => ?_⟩
  · have hnotOpen : u.round.state ≠ .opened := by
      obtain ⟨hi, -⟩ | h | h := hq <;> rw [‹u.round.state = _›] <;> exact RoundState.noConfusion
    have hcounts := State.counting_notOpen hnotOpen s.entered.eligibleNow
    have halike := (hu.takeEntry hactive (fun ho => absurd ho hnotOpen) b).roundAs
    cases b with
    | true =>
      rw [if_pos rfl, State.entering_keeps hq] at halike
      exact halike.trans hcounts
    | false =>
      rw [if_neg Bool.false_ne_true] at halike
      have hkeeps : (u.counting s.entered.eligibleNow).entering = u.counting s.entered.eligibleNow := by
        refine State.entering_keeps ?_
        have hcritical : (u.counting s.entered.eligibleNow).nodeCritical = u.nodeCritical := by
          refine State.nodeCritical_congr ?_
          unfold State.counting
          split
          · rfl
          · exact (State.commitTest_moves _).channels
        rw [hcounts.1, hcritical]
        exact hq
      rw [hkeeps] at halike
      exact halike.trans hcounts
  · have halike := (hu.takeEntry hactive hv b).roundAs
    cases b with
    | true => exact .inl (hround halike)
    | false => exact .inr (hround halike)

/-! ### The completion (R130, R134) -/

theorem exec_frameCompletes {f : Frame} (h : s.link.inFlight = some f) :
    exec .frameCompletes s = .next (if s.readsTrue f then s.clearFlight.completed f.kind else s) := by
  show Host.Outcome.next (match s.link.inFlight with
    | some f => if s.readsTrue f then s.clearFlight.completed f.kind else s
    | none => s) = _
  rw [h]

theorem State.completed_other {k : FrameKind} (hj : k ≠ .join) (hl : k ≠ .leave) : s.completed k = s := by
  cases k with
  | join => exact absurd rfl hj
  | leave => exact absurd rfl hl
  | status | alarm | ack | propose | vote | withdraw | commit => rfl

theorem State.completed_join (h : s.life.nodeState = .joining) : s.completed .join = s.enterActive := by
  simp only [State.completed, h]

theorem State.completed_leave (h : s.life.nodeState = .active) : s.completed .leave = s.leaveFor .quiet := by
  simp only [State.completed, h]

/-- Whatever a completion does beyond the link, the link is that of a completed frame. -/
theorem State.completed_link (s : State) (k : FrameKind) (h : s.link.inFlight = none) : (s.completed k).link = s.link := by
  unfold State.completed
  split
  · exact s.enterActive_spec.1
  · have hlink : (s.leaveFor .quiet).link = { s.link with inFlight := none } := by
      obtain ⟨hframe, -⟩ := s.leaveFor_spec (n := .quiet) (by decide)
      rw [hframe]
    rw [hlink, ← h]
  · rfl

/-- A node has won arbitration where the wire carried its start mark and its whole key (R130). -/
theorem wonArbitration_iff (w : RawFrame) (wire : List Bool) : wonArbitration w wire = true ↔
    ∃ key rest tail, key.length = keyPeriods w + 1 ∧ wire = key ++ rest ∧ wireBits w = key ++ tail := by
  simp only [wonArbitration, Bool.and_eq_true, decide_eq_true_eq, beq_iff_eq]
  constructor
  · rintro ⟨hlt, htake⟩
    refine ⟨wire.take (keyPeriods w + 1), wire.drop (keyPeriods w + 1), (wireBits w).drop (keyPeriods w + 1), ?_,
      (List.take_append_drop _ _).symm, ?_⟩
    · rw [List.length_take]
      omega
    · rw [htake, List.take_append_drop]
  · rintro ⟨key, rest, tail, hlength, hwire, hbits⟩
    constructor
    · rw [hwire, List.length_append]
      omega
    · rw [hwire, hbits, ← hlength, List.take_left, List.take_left]

end

/-- Settles O46: the completion by the kind of the frame, then what it takes to complete. -/
theorem completionClearsTheFlight : Obligations.CompletionClearsTheFlight := by
  refine ⟨fun s f hf ht => ?completes, fun s f hf => ⟨fun hn => ?_, ?_, wonArbitration_iff _ _⟩⟩
  case completes =>
    refine ⟨s.clearFlight.completed f.kind, (exec_frameCompletes hf).trans (congrArg _ (if_pos ht)),
      State.completed_link _ _ rfl, fun hj hl => ?other, fun hk hn => ?leave, fun hk hn => ?join⟩
    case other =>
      rw [State.completed_other hj hl]
      rfl
    case leave =>
      have hactive : s.clearFlight.life.nodeState = .active := hn
      rw [hk, State.completed_leave hactive]
      obtain ⟨hframe, -⟩ := s.clearFlight.leaveFor_spec (n := .quiet) (by decide)
      generalize s.clearFlight.leaveFor .quiet = t at *
      refine ⟨by rw [hframe], by rw [hframe], by rw [hframe], ?_⟩
      have hlink : t.link = _ := congrArg State.link hframe
      have hlife : t.life = _ := congrArg State.life hframe
      have hqueue : t.queue = [] := by rw [hframe]
      rw [hlink, hlife, hqueue]
      exact hframe
    case join =>
      have hjoining : s.clearFlight.life.nodeState = .joining := hn
      rw [hk, State.completed_join hjoining]
      obtain ⟨hlink, hactive, hdeadline, hstatus, hcounted, hframe⟩ := s.clearFlight.enterActive_spec
      have hopens : s.nodeCritical = true → s.round.state = .idle →
          s.clearFlight.enterActive.round.number = s.round.lastClosed + 1
            ∧ s.clearFlight.enterActive.round.state ≠ .idle := by
        intro hc hi
        rw [State.enterActive_eq, State.recomputeTargets_round]
        exact State.takeEntry_opensAs (s := s.clearFlight.entered) rfl hi hc _
      have hround := fun u => State.enterActive_roundAs (s := s.clearFlight) (u := u)
      generalize s.clearFlight.enterActive = t at *
      refine ⟨hactive, hdeadline, hstatus, hcounted, hopens, ?_, fun u hu => ?_⟩
      · rw [hlink]
        exact hframe
      · have halike : s.clearFlight.entered.Alike u := by
          rw [hu, hlink, hdeadline]
          exact ⟨⟨rfl, rfl, rfl, rfl, fun _ => rfl, rfl, rfl, rfl, rfl⟩, rfl, rfl⟩
        have hsame : u.round = s.round ∧ u.nodeCritical = s.nodeCritical := by
          rw [hu]
          exact ⟨rfl, rfl⟩
        have hu' := hround u halike
        rw [hsame.1, hsame.2] at hu'
        exact hu'
  · rw [exec_frameCompletes hf, hn, if_neg Bool.false_ne_true]
  · simp [State.readsTrue]

end Sys2Proof.Machine

/-! # What the queue does with a frame, by its kind (08) -/

namespace Sys2Proof.Machine

section
variable {s : State} {q : List Pending} {f : Pending}

/-! ### Admission (R143) -/

theorem NodeState.admits_iff (n : NodeState) (k : FrameKind) :
    n.admits k = true ↔ (k = .join ∧ n = .joining) ∨ (k ≠ .join ∧ n = .active) := by
  cases n <;> simp [NodeState.admits]

theorem State.offer_dropped (h : (f.kind = .join ∧ s.life.nodeState ≠ .joining)
    ∨ (f.kind ≠ .join ∧ s.life.nodeState ≠ .active)) : s.offer f = s := by
  refine if_neg fun ha => ?_
  obtain ⟨hj, hn⟩ | ⟨hj, hn⟩ := (NodeState.admits_iff _ _).mp ha
  · obtain ⟨-, hn'⟩ | ⟨hj', -⟩ := h
    · exact hn' hn
    · exact hj' hj
  · obtain ⟨hj', -⟩ | ⟨-, hn'⟩ := h
    · exact hj hj'
    · exact hn' hn

/-! ### Queueing over a pending entry (R144) -/

/-- A kind not pending becomes the youngest entry; the list of an ALARM and of an ACK begins as it is placed and merged. -/
theorem enqueue_youngest (h : pendingKind q f.kind = false) (ha : ∀ rs, f ≠ .alarm rs) (hk : ∀ ps, f ≠ .ack ps) :
    enqueue q f = q ++ [f] := by
  cases f with
  | alarm rs => exact absurd rfl (ha rs)
  | ack ps => exact absurd rfl (hk ps)
  | propose | vote | withdraw | commit => exact congrArg (· ++ _) (withoutKind_absent h)
  | status | join | leave => exact if_neg (Bool.eq_false_iff.mp h)

/-- The four round kinds take the place of a pending entry of their kind. -/
theorem enqueue_round (h : f.kind = .propose ∨ f.kind = .vote ∨ f.kind = .withdraw ∨ f.kind = .commit) :
    enqueue q f = withoutKind q f.kind ++ [f] := by
  cases f with
  | propose | vote | withdraw | commit => rfl
  | status | join | leave | alarm | ack => simp [FrameOf.kind] at h

/-- STATUS, JOIN and LEAVE are dropped where one is pending. -/
theorem enqueue_pending (h : f.kind = .status ∨ f.kind = .join ∨ f.kind = .leave)
    (hp : pendingKind q f.kind = true) : enqueue q f = q := by
  cases f with
  | status | join | leave => exact if_pos hp
  | propose | vote | withdraw | commit | alarm | ack => simp [FrameOf.kind] at h

/-! ### The return from the wire (R147 to R149) -/

theorem returned_stale {f : Frame} (h : f.kind = .propose ∨ f.kind = .vote ∨ f.kind = .withdraw) :
    returned q f false = q := by
  cases f with
  | propose | vote | withdraw => rfl
  | status | join | leave | commit | alarm | ack => simp [FrameOf.kind] at h

theorem asPending_kind (f : Frame) : f.asPending.kind = f.kind := by
  cases f <;> rfl

theorem returnUnlessPending_pending {f : Frame} (h : pendingKind q f.kind = true) :
    returnUnlessPending q f.asPending = q :=
  if_pos (asPending_kind f ▸ h)

theorem returnUnlessPending_absent {f : Frame} (h : pendingKind q f.kind = false) :
    returnUnlessPending q f.asPending = f.asPending :: q :=
  if_neg (Bool.eq_false_iff.mp (asPending_kind f ▸ h))

/-- A frame other than an ALARM or an ACK gives way to a pending one of its kind. -/
theorem returned_pending {f : Frame} {current : Bool} (ha : f.kind ≠ .alarm) (hk : f.kind ≠ .ack)
    (h : pendingKind q f.kind = true) : returned q f current = q := by
  have hr := returnUnlessPending_pending h
  cases f with
  | alarm => exact absurd rfl ha
  | ack => exact absurd rfl hk
  | status | join | leave | commit => exact hr
  | propose | vote | withdraw =>
    cases current
    · rfl
    · exact hr

theorem returned_absent {f : Frame} (ha : f.kind ≠ .alarm) (hk : f.kind ≠ .ack) (h : pendingKind q f.kind = false) :
    returned q f true = f.asPending :: q := by
  have hr := returnUnlessPending_absent h
  cases f with
  | alarm => exact absurd rfl ha
  | ack => exact absurd rfl hk
  | status | join | leave | commit | propose | vote | withdraw => exact hr

/-! ### Slots and pairs (R113, R114) -/

theorem sensorGroup_eq_iff (d e : AlarmEvent) :
    sensorGroup d = sensorGroup e ↔ ((d = .rise ∨ d = .fall) ↔ (e = .rise ∨ e = .fall)) := by
  cases d <;> cases e <;> decide

theorem sameSlot_iff (r x : AlarmRecord) : sameSlot r x = true ↔ r.channel = x.channel
    ∧ ((r.event = .rise ∨ r.event = .fall) ↔ (x.event = .rise ∨ x.event = .fall)) := by
  rw [sameSlot, Bool.and_eq_true, beq_iff_eq, beq_iff_eq, sensorGroup_eq_iff]

/-- The elements that fail the test are as they were. -/
theorem map_if_of_none {α : Type} {l : List α} {p : α → Bool} (g : α → α) (h : ∀ x ∈ l, p x = false) :
    (l.map fun x => if p x then g x else x) = l := by
  refine (List.map_congr_left fun x hx => ?_).trans (List.map_id l)
  rw [h x hx]
  rfl

/-- Where one element alone passes the test, it alone is replaced. -/
theorem map_if_of_one {α : Type} {xs ys : List α} {x : α} {p : α → Bool} (g : α → α) (hx : p x = true)
    (hxs : ∀ y ∈ xs, p y = false) (hys : ∀ y ∈ ys, p y = false) :
    ((xs ++ x :: ys).map fun y => if p y then g y else y) = xs ++ g x :: ys := by
  rw [List.map_append, List.map_cons, map_if_of_none g hxs, map_if_of_none g hys, hx, if_pos rfl]

theorem placeRecord_end {l : List AlarmRecord} {r : AlarmRecord} (h : ∀ x ∈ l, sameSlot r x = false) :
    placeRecord l r = l ++ [r] :=
  if_neg (Bool.eq_false_iff.mp (List.any_eq_false.mpr fun x hx => Bool.eq_false_iff.mp (h x hx)))

theorem placeRecord_slot {xs ys : List AlarmRecord} {x r : AlarmRecord} (hx : sameSlot r x = true)
    (hxs : ∀ y ∈ xs, sameSlot r y = false) (hys : ∀ y ∈ ys, sameSlot r y = false) :
    placeRecord (xs ++ x :: ys) r = xs ++ r :: ys := by
  have hany : (xs ++ x :: ys).any (sameSlot r) = true := List.any_eq_true.mpr ⟨x, by simp, hx⟩
  rw [placeRecord, if_pos hany]
  exact map_if_of_one (fun _ => r) hx hxs hys

theorem mergePair_end {l : List AckPair} {p : AckPair} (h : ∀ x ∈ l, x.station ≠ p.station) :
    mergePair l p = l ++ [p] :=
  if_neg (Bool.eq_false_iff.mp (List.any_eq_false.mpr fun x hx => Bool.eq_false_iff.mp (beq_eq_false_iff_ne.mpr (h x hx))))

theorem mergePair_station {xs ys : List AckPair} {x p : AckPair} (hx : x.station = p.station)
    (hxs : ∀ y ∈ xs, y.station ≠ p.station) (hys : ∀ y ∈ ys, y.station ≠ p.station) :
    mergePair (xs ++ x :: ys) p = xs ++ { station := p.station, channels := x.channels ||| p.channels } :: ys := by
  have hany : (xs ++ x :: ys).any (·.station == p.station) = true :=
    List.any_eq_true.mpr ⟨x, by simp, beq_iff_eq.mpr hx⟩
  have hmap := map_if_of_one (p := fun y : AckPair => y.station == p.station)
    (fun y : AckPair => { y with channels := y.channels ||| p.channels }) (beq_iff_eq.mpr hx)
    (fun y hy => beq_eq_false_iff_ne.mpr (hxs y hy)) fun y hy => beq_eq_false_iff_ne.mpr (hys y hy)
  rw [mergePair, if_pos hany, hmap, hx]

/-! ### The pending lists (R148, R149) -/

theorem pendingRecords_none (h : pendingKind q .alarm = false) : pendingRecords q = [] := by
  refine List.flatMap_eq_nil_iff.mpr fun f hf => ?_
  have hk := pendingKind_false h f hf
  cases f with
  | alarm => exact absurd rfl hk
  | status | join | leave | commit | propose | vote | withdraw | ack => rfl

theorem pendingPairs_none (h : pendingKind q .ack = false) : pendingPairs q = [] := by
  refine List.flatMap_eq_nil_iff.mpr fun f hf => ?_
  have hk := pendingKind_false h f hf
  cases f with
  | ack => exact absurd rfl hk
  | status | join | leave | commit | propose | vote | withdraw | alarm => rfl

theorem growAlarm_other (rs : List AlarmRecord) (h : f.kind ≠ .alarm) : growAlarm rs f = f := by
  cases f with
  | alarm => exact absurd rfl h
  | status | join | leave | commit | propose | vote | withdraw | ack => rfl

theorem growAck_other (ps : List AckPair) (h : f.kind ≠ .ack) : growAck ps f = f := by
  cases f with
  | ack => exact absurd rfl h
  | status | join | leave | commit | propose | vote | withdraw | alarm => rfl

end

/-- Settles O47: an admitted frame is queued by `enqueue`, and each kind has its rule. -/
theorem queueActsByKind : Obligations.QueueActsByKind := by
  refine ⟨fun s f => ⟨State.offer_dropped, fun h => ?offered⟩, fun q f current => ?returns, sameSlot_iff,
    fun l r => ⟨rfl, fun rs => rfl, placeRecord_end, ?slot⟩, fun l p => ⟨rfl, fun ps => rfl, mergePair_end, ?pair⟩,
    fun q l rs m ps => ⟨rfl, rfl, fun f => growAlarm_other rs, fun f => growAck_other ps, pendingRecords_none,
      pendingPairs_none⟩⟩
  case offered =>
    have hqueue : (s.offer f).queue = enqueue s.queue f := by
      rw [State.offer_queue, if_pos ((NodeState.admits_iff _ _).mpr h)]
    rw [hqueue]
    refine ⟨hqueue ▸ State.offer_frame s f, fun k hk => pendingKind_enqueue_ne _ _ hk.symm, pendingKind_enqueue_self _ _,
      enqueue_youngest, ?_, ?_, enqueue_round, enqueue_pending, ?_, ?_⟩
    · rintro rs rfl hp
      exact if_neg (Bool.eq_false_iff.mp hp)
    · rintro ps rfl hp
      exact if_neg (Bool.eq_false_iff.mp hp)
    · rintro rs rfl hp
      exact if_pos hp
    · rintro ps rfl hp
      exact if_pos hp
  case returns =>
    refine ⟨?_, returned_pending, ?_, ?_, ?_⟩
    · rintro hk rfl
      exact returned_stale hk
    · rintro ha hk hp rfl
      exact returned_absent ha hk hp
    · rintro rs rfl
      rfl
    · rintro ps rfl
      rfl
  case slot =>
    rintro xs x ys rfl
    exact placeRecord_slot
  case pair =>
    rintro xs x ys rfl
    exact mergePair_station

end Sys2Proof.Machine

/-! # The Diagnostic Port (11): requests judged and answered -/

namespace Sys2Proof.Machine

section
variable {s : State}

/-! ### The tests of R179 -/

theorem State.serve_answers (h : s.Answers) (act : State → State) : s.serve act = act s :=
  if_neg (Bool.eq_false_iff.mp h)

theorem State.judge_some {α : Type} (h : s.running = true) (x : α) (act : α → State → State) :
    State.judge (some x) act s = act x s := by
  simp only [State.judge, h, if_true]

theorem State.judge_none {α : Type} (h : s.running = true) (act : α → State → State) :
    State.judge none act s = s.respond .badArgument [] := by
  simp only [State.judge, h, if_true]

theorem State.judge_stopped {α : Type} (h : s.running = false) (x : Option α) (act : α → State → State) :
    State.judge x act s = s.respond .notReady [] := by
  simp only [State.judge, h, Bool.false_eq_true, if_false]

/-! ### Arguments -/

theorem inRange_some {n : Nat} {b : Byte} {a : Fin n} (h : b.toNat = a.val) : inRange n b = some a := by
  have hlt : b.toNat < n := h ▸ a.isLt
  rw [inRange, dif_pos hlt]
  exact congrArg some (Fin.ext h)

theorem inRange_none {n : Nat} {b : Byte} (h : n ≤ b.toNat) : inRange n b = none :=
  dif_neg (Nat.not_lt.mpr h)

theorem fanOfByte_some {b : Byte} {f : FanId} (h : (b = 0 ∧ f = .a) ∨ (b = 1 ∧ f = .b)) : fanOfByte b = some f := by
  obtain ⟨rfl, rfl⟩ | ⟨rfl, rfl⟩ := h
  · rfl
  · rfl

theorem fanOfByte_none {b : Byte} (h : 2 ≤ b.toNat) : fanOfByte b = none := by
  have h0 : b ≠ 0 := by
    rintro rfl
    exact absurd h (by decide)
  have h1 : b ≠ 1 := by
    rintro rfl
    exact absurd h (by decide)
  rw [fanOfByte, if_neg h0, if_neg h1]

theorem channelArgument_some {x : ChannelSet} (h : x ≠ 0) : channelArgument x = some x := if_neg h

theorem remoteArgument_some {b : Byte} {x : ChannelSet} {a : Station} (hb : b.toNat = a.val) (hx : x ≠ 0) :
    remoteArgument b x = some { station := a, channels := x } := by
  simp only [remoteArgument, inRange_some hb, channelArgument_some hx]

theorem remoteArgument_none {b : Byte} {x : ChannelSet} (h : 16 ≤ b.toNat ∨ x = 0) : remoteArgument b x = none := by
  obtain h | rfl := h
  · simp only [remoteArgument, inRange_none h]
  · have hx : channelArgument 0 = none := rfl
    unfold remoteArgument
    rw [hx]
    cases inRange 16 b <;> rfl

theorem isUnknownCode_iff {b : Byte} : isUnknownCode b = true ↔ b = 0 ∨ 8 < b.toNat := by
  rw [isUnknownCode, Bool.or_eq_true, beq_iff_eq, decide_eq_true_iff, BitVec.toNat_eq (x := b)]
  rfl

/-! ### The acknowledgements and LEAVE (R185, R186) -/

variable (ha : s.Answers) (hr : s.running = true)
include ha hr

theorem exec_ackLocal {x : ChannelSet} (hx : x ≠ 0) : exec (.ackLocal x) s = .next (s.acknowledgeOwn x) := by
  show Host.Outcome.next (s.serve (State.judge (channelArgument x) State.acknowledgeOwn)) = _
  rw [State.serve_answers ha, channelArgument_some hx, State.judge_some hr]

theorem exec_ackRemote {b : Byte} {x : ChannelSet} {a : Station} (hb : b.toNat = a.val) (hx : x ≠ 0) :
    exec (.ackRemote b x) s = .next (s.acknowledgeRemote { station := a, channels := x }) := by
  show Host.Outcome.next (s.serve (State.judge (remoteArgument b x) State.acknowledgeRemote)) = _
  rw [State.serve_answers ha, remoteArgument_some hb hx, State.judge_some hr]

theorem exec_leave : exec .leave s = .next s.askLeave := by
  show Host.Outcome.next (s.serve (State.judge (some ()) fun _ => State.askLeave)) = _
  rw [State.serve_answers ha, State.judge_some hr]

omit ha hr

theorem State.acknowledgeRemote_other {p : AckPair} (h : p.station ≠ s.own) : s.acknowledgeRemote p =
    if !s.isActive then s.respond .notReady []
    else if s.ackFull p.station then s.respond .busy []
    else (s.offer (.ack [p])).respond .ok [] :=
  if_neg h

theorem State.isActive_iff : s.isActive = true ↔ s.life.nodeState = .active := beq_iff_eq

/-- In an ACTIVE node a frame of any kind but JOIN is queued (R143). -/
theorem State.offer_active (h : s.isActive = true) {f : Pending} (hk : f.kind ≠ .join) :
    s.offer f = { s with queue := enqueue s.queue f } :=
  if_pos ((NodeState.admits_iff _ _).mpr (.inr ⟨hk, State.isActive_iff.mp h⟩))

end

/-- Settles O49: the tests of R179 in their order, command by command. -/
theorem requestsAreJudgedInOrder : Obligations.RequestsAreJudgedInOrder := by
  refine ⟨fun s ha => ⟨?node, fun hr => ⟨?round, fun b a hb => ?peer, fun b c hb => ?channel, fun b f hb => ?fan⟩⟩,
    fun s ha => ⟨fun hr c hc => ?notReady, fun hr c hc => ?badArgument, fun b hb => ?unknown⟩⟩
  case node => exact congrArg Host.Outcome.next (State.serve_answers ha _)
  case round => exact congrArg Host.Outcome.next ((State.serve_answers ha _).trans (State.judge_some hr _ _))
  case peer =>
    refine congrArg Host.Outcome.next ((State.serve_answers ha _).trans ?_)
    rw [inRange_some hb]
    exact State.judge_some hr _ _
  case channel =>
    refine congrArg Host.Outcome.next ((State.serve_answers ha _).trans ?_)
    rw [inRange_some hb]
    exact State.judge_some hr _ _
  case fan =>
    refine congrArg Host.Outcome.next ((State.serve_answers ha _).trans ?_)
    rw [fanOfByte_some hb]
    exact State.judge_some hr _ _
  case notReady =>
    obtain rfl | ⟨b, rfl⟩ | ⟨b, rfl⟩ | ⟨b, rfl⟩ | ⟨x, rfl⟩ | ⟨b, x, rfl⟩ | rfl := hc <;>
      exact congrArg Host.Outcome.next ((State.serve_answers ha _).trans (State.judge_stopped hr _ _))
  case badArgument =>
    obtain ⟨b, rfl, hb⟩ | ⟨b, rfl, hb⟩ | ⟨b, rfl, hb⟩ | rfl | ⟨b, x, rfl, hb⟩ := hc <;>
      refine congrArg Host.Outcome.next ((State.serve_answers ha _).trans ?_)
    · rw [inRange_none hb]
      exact State.judge_none hr _
    · rw [inRange_none hb]
      exact State.judge_none hr _
    · rw [fanOfByte_none hb]
      exact State.judge_none hr _
    · exact State.judge_none hr _
    · rw [remoteArgument_none hb]
      exact State.judge_none hr _
  case unknown =>
    exact congrArg Host.Outcome.next ((if_pos (isUnknownCode_iff.mpr hb)).trans (State.serve_answers ha _))

/-- Settles O50: the tests of R185 in their order. -/
theorem ackRemoteIsJudgedByStation : Obligations.AckRemoteIsJudgedByStation := by
  intro s b x a ha hr hb hx
  rw [exec_ackRemote ha hr hb hx, exec_ackLocal ha hr hx]
  refine ⟨fun ho => congrArg Host.Outcome.next (if_pos ho), fun ho hn => congrArg Host.Outcome.next ?notActive,
    fun ho hn hm hc => congrArg Host.Outcome.next ?busy, fun ho hn hm => congrArg Host.Outcome.next ?queued⟩
  case notActive =>
    rw [State.acknowledgeRemote_other ho, hn]
    rfl
  case busy =>
    have hfull : s.ackFull a = true := by
      rw [State.ackFull, hm, hc]
      rfl
    rw [State.acknowledgeRemote_other ho, hn, hfull]
    rfl
  case queued =>
    have hfull : s.ackFull a = false := by
      rw [State.ackFull, Bool.and_eq_false_iff, Bool.not_eq_false', decide_eq_false_iff_not, Nat.not_le]
      exact hm
    rw [State.acknowledgeRemote_other ho, hn, hfull, State.offer_active hn FrameKind.noConfusion]
    rfl

/-- Settles O51: the tests of R186 in their order. -/
theorem leaveIsJudgedByRoundAndState : Obligations.LeaveIsJudgedByRoundAndState := by
  intro s ha hr
  rw [exec_leave ha hr]
  refine ⟨fun hn => congrArg Host.Outcome.next (if_pos hn), fun hi hn => congrArg Host.Outcome.next ?notActive,
    fun hi hn => congrArg Host.Outcome.next ?accepted⟩
  case notActive =>
    rw [State.askLeave, if_neg (not_not_intro hi), hn]
    rfl
  case accepted =>
    rw [State.askLeave, if_neg (not_not_intro hi), hn, State.acceptLeave, State.offer_active hn FrameKind.noConfusion]
    rfl

end Sys2Proof.Machine

/-! # What no command undoes: the clock, the waiting commands, the latch and a decided record (02 R44 to R46) -/

namespace Sys2Proof.Machine

/-- The record is decided: COMMITTED or HALTED. -/
def State.Decided (s : State) : Prop := s.round.state = .committed ∨ s.round.state = .halted

/-- From `s` to `t` nothing is taken back: the clock and the waiting commands stand, free choices are counted upward, an
asserted latch stays asserted, and a decided record is left as it is. -/
structure State.Onward (s t : State) : Prop where
  now : t.now = s.now
  pending : t.pending = s.pending
  choices : s.choices ≤ t.choices
  latch : s.shutdownLatch = true → t.shutdownLatch = true
  decided : s.Decided → t.round = s.round

section
variable {s t u : State}

theorem State.Decided.not_open (h : s.Decided) : s.round.state ≠ .opened := by
  intro ho
  obtain h | h := h
  · exact RoundState.noConfusion (ho.symm.trans h)
  · exact RoundState.noConfusion (ho.symm.trans h)

theorem State.Decided.not_idle (h : s.Decided) : s.round.state ≠ .idle := by
  intro hi
  obtain h | h := h
  · exact RoundState.noConfusion (hi.symm.trans h)
  · exact RoundState.noConfusion (hi.symm.trans h)

theorem State.Onward.refl (s : State) : s.Onward s := ⟨rfl, rfl, le_rfl, id, fun _ => rfl⟩

theorem State.Onward.trans (h : s.Onward t) (k : t.Onward u) : s.Onward u where
  now := k.now.trans h.now
  pending := k.pending.trans h.pending
  choices := h.choices.trans k.choices
  latch hl := k.latch (h.latch hl)
  decided hd := by
    have hround := h.decided hd
    have hd' : t.Decided := by rwa [State.Decided, hround]
    exact (k.decided hd').trans hround

/-- An operation on other blocks. -/
theorem State.Onward.of_same (hn : t.now = s.now) (hp : t.pending = s.pending) (hc : t.choices = s.choices)
    (hl : t.shutdownLatch = s.shutdownLatch) (hr : t.round = s.round) : s.Onward t :=
  ⟨hn, hp, hc.ge, fun h => hl.trans h, fun _ => hr⟩

/-- An operation of the Round Controller, which has to leave a decided record alone. -/
theorem State.Onward.of_moves (h : s.RoundMoves t) (hd : s.Decided → t.round = s.round) : s.Onward t :=
  ⟨h.now, h.pending, h.choices.ge, h.latch, hd⟩

/-! ### The plain operations -/

theorem State.updateOwn_onward (s : State) (g : PeerEntry → PeerEntry) : s.Onward (s.updateOwn g) :=
  .of_same (s.updateOwn_now g) (s.updateOwn_pending g) (s.updateOwn_choices g) (s.updateOwn_shutdownLatch g)
    (s.updateOwn_round g)

theorem State.setWatch_onward (s : State) (c : Channel) (w : WatchRecord) : s.Onward (s.setWatch c w) :=
  .of_same rfl rfl rfl rfl rfl

theorem State.setFan_onward (s : State) (f : FanId) (r : FanRecord) : s.Onward (s.setFan f r) :=
  .of_same (s.setFan_now f r) (s.setFan_pending f r) (s.setFan_choices f r) (s.setFan_shutdownLatch f r)
    (s.setFan_round f r)

theorem State.recomputeTargets_onward (s : State) : s.Onward s.recomputeTargets :=
  .of_same s.recomputeTargets_now s.recomputeTargets_pending s.recomputeTargets_choices
    s.recomputeTargets_shutdownLatch s.recomputeTargets_round

theorem State.offer_onward (s : State) (f : Pending) : s.Onward (s.offer f) :=
  .of_same (s.offer_now f) (s.offer_pending f) (s.offer_choices f) (s.offer_shutdownLatch f) (s.offer_round f)

theorem State.offerRecords_onward (s : State) (rs : List AlarmRecord) : s.Onward (s.offerRecords rs) := by
  rw [State.offerRecords_frame]
  exact .of_same rfl rfl rfl rfl rfl

/-! ### The Round Controller (R44) -/

theorem State.commitTest_onward (s : State) : s.Onward s.commitTest :=
  .of_moves s.commitTest_moves fun hd => by rw [s.commitTest_fails (.inr (.inl hd.not_open))]

theorem State.deliverEligible_onward (s : State) (b : Bool) : s.Onward (s.deliverEligible b) := by
  have hcounted : s.Onward { s with eligible := s.eligibleNow } := .of_same rfl rfl rfl rfl rfl
  unfold State.deliverEligible
  dsimp only
  split
  · exact hcounted.trans (State.commitTest_onward _)
  · exact hcounted

theorem State.propose_onward (s : State) : s.Onward s.propose := by
  refine .of_moves s.propose_moves fun hd => ?_
  unfold State.propose
  split
  · split
    next hi => exact absurd hi hd.not_idle
    next ho => exact absurd ho hd.not_open
    next => rfl
    next => rfl
  · rfl

theorem State.withdrawOwn_onward (s : State) : s.Onward s.withdrawOwn :=
  .of_moves s.withdrawOwn_moves fun hd => congrArg State.round (if_neg fun ⟨ho, _⟩ => hd.not_open ho)

theorem State.verdictChanged_onward (s : State) (v : Verdict) : s.Onward (s.verdictChanged v) :=
  .of_moves (s.verdictChanged_moves v) fun hd => congrArg State.round (if_neg fun ⟨ho, _⟩ => hd.not_open ho)

theorem State.roundEntersActive_onward (s : State) : s.Onward s.roundEntersActive := by
  refine .of_moves s.roundEntersActive_moves fun hd => ?_
  unfold State.roundEntersActive
  split
  next hi => exact absurd hi hd.not_idle
  next ho => exact absurd ho hd.not_open
  next => rfl
  next => rfl

/-! ### Peers (R18, R23) -/

theorem State.changePeer_onward (s : State) (a : Station) (f : PeerEntry → PeerEntry) : s.Onward (s.changePeer a f) := by
  have hm := s.changePeer_moves a f
  exact ⟨hm.now, hm.pending, hm.choices.ge, hm.latch, fun hd => (s.changePeer_notOpen a f hd.not_open).1⟩

theorem State.viaRound_onward (s : State) (a : Station) {g : State → State} (hg : ∀ x : State, x.Onward (g x)) :
    s.Onward (s.viaRound a g) := by
  have hrefresh : s.Onward (s.refreshPeer a) := s.changePeer_onward a _
  unfold State.viaRound
  dsimp only
  split
  · exact hrefresh.trans (hg _)
  · exact hrefresh

theorem State.hearPropose_onward (s : State) (a : Station) (r : Byte) (c : Channel) (x : HalfDegrees) :
    s.Onward (s.hearPropose a r c x) :=
  .of_moves (s.hearPropose_moves a r c x) fun hd => by rw [State.hearPropose_decided hd]

theorem State.hearVote_onward (s : State) (a : Station) (r : Byte) (v : Verdict) : s.Onward (s.hearVote a r v) :=
  .of_moves (s.hearVote_moves a r v) fun hd => by rw [State.hearVote_ignored r v (.inl hd.not_open)]

theorem State.hearWithdraw_onward (s : State) (a : Station) (r : Byte) : s.Onward (s.hearWithdraw a r) :=
  .of_moves (s.hearWithdraw_moves a r) fun hd => by rw [State.hearWithdraw_ignored r (.inl hd.not_open)]

theorem State.hearCommitment_onward (s : State) (r : Byte) (x : Option StationSet) : s.Onward (s.hearCommitment r x) :=
  .of_moves (s.hearCommitment_moves r x) fun hd => by rw [State.hearCommitment_decided hd]

theorem State.peerReports_onward (s : State) (a : Station) (f : StatusFields) : s.Onward (s.peerReports a f) := by
  have hentry := s.changePeer_onward a fun e => (s.refreshed e).applyStatus s.cfg.signature f
  unfold State.peerReports
  dsimp only
  split
  · refine hentry.trans (.of_moves (State.hearStatusRound_moves _ _ _) fun hd => ?_)
    rw [State.hearStatusRound_decided hd]
  · exact hentry

/-! ### Samples and acknowledgements -/

theorem State.observe_onward (s : State) (c : Channel) (p : Sample) : s.Onward (s.observe c p) := by
  unfold State.observe State.mirrorSets
  exact ((s.setWatch_onward c _).trans (State.offerRecords_onward _ _)).trans (State.updateOwn_onward _ _)

theorem State.criticalChanged_onward (s : State) (b : Bool) : s.Onward (s.criticalChanged b) := by
  have hmirror : s.Onward s.mirrorCritical := s.updateOwn_onward _
  unfold State.criticalChanged
  split
  · exact .refl s
  · split
    · exact hmirror.trans (State.propose_onward _)
    · exact hmirror.trans (State.withdrawOwn_onward _)

theorem State.updateDemand_onward (s : State) : s.Onward s.updateDemand := by
  unfold State.updateDemand
  dsimp only
  have hsum : s.Onward { s with localDemand := s.localDemandNow } := .of_same rfl rfl rfl rfl rfl
  have hmirror := hsum.trans (State.updateOwn_onward _ fun e => { e with demand := s.localDemandNow })
  split
  · exact .refl s
  · split
    · exact hmirror
    · exact hmirror.trans (State.recomputeTargets_onward _)

theorem State.updateStanding_onward (s : State) : s.Onward s.updateStanding := by
  have hsum : s.Onward { s with standing := s.standingNow } := .of_same rfl rfl rfl rfl rfl
  unfold State.updateStanding
  split
  · exact .refl s
  · exact hsum.trans (State.verdictChanged_onward _ _)

theorem State.takeSample_onward (s : State) (c : Channel) (p : Sample) : s.Onward (s.takeSample c p) := by
  have hcritical : ∀ x : State, x.Onward (x.judgeCritical c p) := fun x =>
    (x.setWatch_onward c _).trans (State.criticalChanged_onward _ _)
  exact (((s.observe_onward c p).trans (hcritical _)).trans (State.updateDemand_onward _)).trans
    (State.updateStanding_onward _)

theorem State.armSample_onward (s : State) (c : Channel) : s.Onward (s.armSample c) := .of_same rfl rfl rfl rfl rfl

theorem State.acknowledge_onward (s : State) (x : ChannelSet) : s.Onward (s.acknowledge x) := by
  have hfold : s.Onward ((List.finRange 8).foldl (State.ackChannel x) s) := by
    rw [State.ackFold_frame]
    exact .of_same rfl rfl rfl rfl rfl
  exact (hfold.trans (State.updateOwn_onward _ _)).trans (State.updateStanding_onward _)

theorem State.peerAcks_onward (s : State) (a : Station) (ps : List AckPair) : s.Onward (s.peerAcks a ps) := by
  have hrefresh : s.Onward (s.refreshPeer a) := s.changePeer_onward a _
  obtain ⟨-, h⟩ | ⟨-, h⟩ := s.peerAcks_cases a ps <;> rw [h]
  · exact hrefresh.trans (State.acknowledge_onward _ _)
  · exact hrefresh

/-! ### The link and the node state -/

theorem State.toWait_onward (s : State) (b : Bool) : s.Onward (s.toWait b) := .of_same rfl rfl rfl rfl rfl

theorem State.leaveFor_onward (s : State) {n : NodeState} (hn : n ≠ .active) : s.Onward (s.leaveFor n) := by
  obtain ⟨hframe, -⟩ := s.leaveFor_spec hn
  rw [hframe]
  exact .of_same rfl rfl rfl rfl rfl

theorem State.receive_onward (s : State) (a : Station) (v : Bool) {deliver : State → State}
    (hd : ∀ x : State, x.Onward (deliver x)) : s.Onward (s.receive a v deliver) := by
  have hwait := s.toWait_onward true
  unfold State.receive
  split
  · dsimp only
    split
    · exact hwait
    · split
      · refine hwait.trans ?_
        unfold State.addressConflict
        split
        · exact State.leaveFor_onward _ NodeState.noConfusion
        · exact State.leaveFor_onward _ NodeState.noConfusion
        · exact State.leaveFor_onward _ NodeState.noConfusion
        · exact State.leaveFor_onward _ NodeState.noConfusion
        all_goals exact .refl _
      · exact hwait.trans (hd _)
  · exact .refl s

theorem State.faultOn_onward (s : State) (f : Frame) : s.Onward (s.faultOn f) := by
  have hcount : s.Onward s.countFault := .of_same rfl rfl rfl rfl rfl
  unfold State.faultOn
  dsimp only
  split
  · exact hcount.trans (.of_same rfl rfl rfl rfl rfl)
  · refine (hcount.trans (u := { s.countFault with link := { s.countFault.link with inFlight := none } })
      (.of_same rfl rfl rfl rfl rfl)).trans ?_
    unfold State.faultLimit
    split
    · exact State.leaveFor_onward _ NodeState.noConfusion
    · split
      · exact State.leaveFor_onward _ NodeState.noConfusion
      · exact State.leaveFor_onward _ NodeState.noConfusion
    all_goals exact .refl _

theorem State.takeEntry_onward (s : State) (b : Bool) : s.Onward (s.takeEntry b) := by
  unfold State.takeEntry
  split
  · exact s.roundEntersActive_onward.trans (State.deliverEligible_onward _ _)
  · exact (s.deliverEligible_onward false).trans (State.roundEntersActive_onward _)

theorem State.enterActive_onward (s : State) : s.Onward s.enterActive := by
  have hentered : s.Onward s.entered := ⟨rfl, rfl, Nat.le_succ _, id, fun _ => rfl⟩
  rw [State.enterActive_eq]
  exact (hentered.trans (State.takeEntry_onward _ _)).trans (State.recomputeTargets_onward _)

theorem State.completed_onward (s : State) (k : FrameKind) : s.Onward (s.completed k) := by
  unfold State.completed
  split
  · exact s.enterActive_onward
  · exact s.leaveFor_onward NodeState.noConfusion
  · exact .refl s

/-! ### Fans, loading and the port -/

theorem State.closeWindow_onward (s : State) (f : FanId) : s.Onward (s.closeWindow f) := by
  rw [s.closeWindow_frame f]
  exact .of_same rfl rfl rfl rfl rfl

theorem State.loadFault_onward (s : State) (c : FaultCode) : s.Onward (s.loadFault c) := by
  rw [(s.loadFault_spec c).1]
  exact .of_same rfl rfl rfl rfl rfl

theorem State.loadGood_onward (s : State) (g : StartImage) : s.Onward (s.loadGood g) := by
  obtain ⟨y, t, ht, hy, hframe, -⟩ := s.loadGood_spec g
  rw [ht, hframe, hy]
  exact .of_same rfl rfl rfl rfl rfl

theorem State.keepByte_onward (s : State) (b : Byte) : s.Onward (s.keepByte b) := by
  have hkept : s.Onward { s with loader := { s.loader with byteDeadline := none, bytes := s.loader.bytes ++ [b] } } :=
    .of_same rfl rfl rfl rfl rfl
  unfold State.keepByte
  dsimp only
  split
  · exact hkept.trans (.of_same rfl rfl rfl rfl rfl)
  · unfold State.finishLoad
    split
    · exact hkept.trans (State.loadFault_onward _ _)
    · exact hkept.trans (State.loadGood_onward _ _)

theorem State.readFailed_onward (s : State) : s.Onward s.readFailed := by
  unfold State.readFailed
  split
  · exact .of_same rfl rfl rfl rfl rfl
  · exact s.loadFault_onward _

theorem State.enterLoading_onward (s : State) : s.Onward s.enterLoading := by
  unfold State.enterLoading
  split
  · exact .refl s
  · exact .of_same rfl rfl rfl rfl rfl

theorem State.respond_onward (s : State) (r : DiagResult) (l : List Byte) : s.Onward (s.respond r l) :=
  .of_same rfl rfl rfl rfl rfl

theorem State.serve_onward (s : State) {act : State → State} (ha : s.Onward (act s)) : s.Onward (s.serve act) := by
  unfold State.serve
  split
  · exact .refl s
  · exact ha

theorem State.judge_onward (s : State) {α : Type} (x : Option α) {act : α → State → State}
    (ha : ∀ y, s.Onward (act y s)) : s.Onward (State.judge x act s) := by
  unfold State.judge
  split
  · split
    · exact ha _
    · exact s.respond_onward _ _
  · exact s.respond_onward _ _

theorem State.acknowledgeOwn_onward (s : State) (x : ChannelSet) : s.Onward (s.acknowledgeOwn x) :=
  (s.acknowledge_onward x).trans (State.respond_onward _ _ _)

theorem State.acknowledgeRemote_onward (s : State) (p : AckPair) : s.Onward (s.acknowledgeRemote p) := by
  unfold State.acknowledgeRemote
  split
  · exact s.acknowledgeOwn_onward _
  · split
    · exact s.respond_onward _ _
    · split
      · exact s.respond_onward _ _
      · exact (s.offer_onward _).trans (State.respond_onward _ _ _)

theorem State.askLeave_onward (s : State) : s.Onward s.askLeave := by
  have haccept : s.Onward s.acceptLeave := (s.offer_onward .leave).trans (.of_same rfl rfl rfl rfl rfl)
  unfold State.askLeave
  split
  · exact s.respond_onward _ _
  · split
    · exact s.respond_onward _ _
    · exact haccept.trans (State.respond_onward _ _ _)

theorem State.Onward.ite {p : Prop} [Decidable p] (h : p → s.Onward t) : s.Onward (if p then t else s) := by
  split
  case isTrue hp => exact h hp
  case isFalse => exact .refl s

end

/-! ### Every command but the resets and the grace deadline's expiry -/

theorem exec_onward {s t : State} {c : Instr} (hx : exec c s = .next t) (hpower : c ≠ .powerOn)
    (hline : c ≠ .resetLineAsserted) (hgrace : c ≠ .graceDeadlineExpires) : s.Onward t := by
  cases c <;> obtain rfl := Host.Outcome.next.inj hx
  case powerOn => exact absurd rfl hpower
  case resetLineAsserted => exact absurd rfl hline
  case graceDeadlineExpires => exact absurd rfl hgrace
  case resetLineReleased =>
    have hreleased : s.Onward { s with resetLine := false } := .of_same rfl rfl rfl rfl rfl
    exact .ite fun _ => hreleased.trans (State.enterLoading_onward _)
  case imageByteArrives late b => exact .ite fun _ => s.keepByte_onward b
  case memoryReadRefused => exact .ite fun _ => s.readFailed_onward
  case byteDeadlineExpires => exact .ite fun _ => s.readFailed_onward
  case sampleWord w => exact .ite fun _ => (s.armSample_onward _).trans (State.takeSample_onward _ _ _)
  case sampleDeadlineExpires n => exact .ite fun _ => (s.armSample_onward n).trans (State.takeSample_onward _ _ _)
  case tachEdge f => exact .ite fun _ => s.setFan_onward f _
  case windowDeadlineExpires f => exact .ite fun _ => (s.closeWindow_onward f).trans (State.setFan_onward _ f _)
  case fallDeadlineExpires f => exact .ite fun _ => s.setFan_onward f _
  case silenceDeadlineExpires a => exact .ite fun _ => s.changePeer_onward a _
  case lostDeadlineExpires a => exact .ite fun _ => s.changePeer_onward a _
  case receiveJoin a g d => exact s.receive_onward a _ fun x => x.changePeer_onward a _
  case receiveStatus a f => exact s.receive_onward a _ fun x => x.peerReports_onward a f
  case receiveAlarm a rs => exact s.receive_onward a _ fun x => x.changePeer_onward a _
  case receiveAck a ps => exact s.receive_onward a _ fun x => x.peerAcks_onward a ps
  case receivePropose a r c x =>
    exact s.receive_onward a _ fun y => y.viaRound_onward a fun z => z.hearPropose_onward a r c x
  case receiveVote a r v => exact s.receive_onward a _ fun y => y.viaRound_onward a fun z => z.hearVote_onward a r v
  case receiveWithdraw a r => exact s.receive_onward a _ fun y => y.viaRound_onward a fun z => z.hearWithdraw_onward a r
  case receiveCommit a r cs =>
    exact s.receive_onward a _ fun y => y.viaRound_onward a fun z => z.hearCommitment_onward r _
  case receiveLeave a => exact s.receive_onward a _ fun x => x.changePeer_onward a _
  case malformedFrameDiscarded w => exact .ite fun _ => s.toWait_onward _
  case receptionFailure cause => exact .ite fun _ => s.toWait_onward _
  case idleGapElapsed n => exact .ite fun _ => .of_same rfl rfl rfl rfl rfl
  case beginTransmission wire =>
    refine .ite fun _ => ?_
    split
    · exact .of_same rfl rfl rfl rfl rfl
    · exact .refl s
  case arbitrationLost =>
    split
    · exact .ite fun _ => .of_same rfl rfl rfl rfl rfl
    · exact .refl s
  case transmitFault wire =>
    split
    · exact .ite fun _ => s.faultOn_onward _
    · exact .refl s
  case frameCompletes =>
    have hclear : s.Onward s.clearFlight := .of_same rfl rfl rfl rfl rfl
    split
    · exact .ite fun _ => hclear.trans (State.completed_onward _ _)
    · exact .refl s
  case listenDeadlineExpires =>
    have hjoining : s.Onward { s with life := { s.life with nodeState := .joining, listenDeadline := none } } :=
      .of_same rfl rfl rfl rfl rfl
    exact .ite fun _ => (hjoining.trans (State.offer_onward _ _)).trans (State.recomputeTargets_onward _)
  case recoveryDeadlineExpires => exact .ite fun _ => .of_same rfl rfl rfl rfl rfl
  case statusDeadlineExpires =>
    have harmed : s.Onward { s with life := { s.life with statusDeadline := some (s.now + s.cfg.statPeriod) } } :=
      .of_same rfl rfl rfl rfl rfl
    exact .ite fun _ => harmed.trans (State.offer_onward _ _)
  case roundDeadlineExpires =>
    exact .ite fun ho => .of_moves (s.abandon_moves.trans s.abandon.propose_moves) fun hd => absurd ho.1 hd.not_open
  case node => exact s.serve_onward (s.respond_onward _ _)
  case round => exact s.serve_onward (s.judge_onward _ fun _ => s.respond_onward _ _)
  case peer a => exact s.serve_onward (s.judge_onward _ fun _ => s.respond_onward _ _)
  case channel n => exact s.serve_onward (s.judge_onward _ fun _ => s.respond_onward _ _)
  case fan f => exact s.serve_onward (s.judge_onward _ fun _ => s.respond_onward _ _)
  case ackLocal x => exact s.serve_onward (s.judge_onward _ fun y => s.acknowledgeOwn_onward y)
  case ackRemote a x => exact s.serve_onward (s.judge_onward _ fun y => s.acknowledgeRemote_onward y)
  case leave => exact s.serve_onward (s.judge_onward _ fun _ => s.askLeave_onward)
  case unknownCommand code => exact .ite fun _ => s.serve_onward (s.respond_onward _ _)
  case startMarkReceived => exact .ite fun _ => .of_same rfl rfl rfl rfl rfl
  case faultedFrameReceptionEnds => exact .ite fun _ => s.toWait_onward true

/-- The grace deadline's expiry moves a COMMITTED record, to HALTED (R45). -/
theorem exec_graceDeadlineExpires {s t : State} (hx : exec .graceDeadlineExpires s = .next t) :
    t = s ∨ (s.round.state = .committed ∧ t = s.halt) := by
  obtain rfl := Host.Outcome.next.inj hx
  split
  case isTrue h => exact .inr ⟨h.1, rfl⟩
  case isFalse => exact .inl rfl

/-- But for the latch at power-on, and the record at a reset, no command takes anything back. -/
theorem exec_keeps {s t : State} {c : Instr} (hx : exec c s = .next t) :
    t.now = s.now ∧ t.pending = s.pending ∧ s.choices ≤ t.choices
      ∧ (c ≠ .powerOn → s.shutdownLatch = true → t.shutdownLatch = true) := by
  by_cases hpower : c = .powerOn
  · subst hpower
    obtain rfl := Host.Outcome.next.inj hx
    have h := State.enterLoading_onward (s.allReset false s.resetLine)
    exact ⟨h.now, h.pending, h.choices, fun hne => absurd rfl hne⟩
  by_cases hline : c = .resetLineAsserted
  · subst hline
    obtain rfl := Host.Outcome.next.inj hx
    exact ⟨rfl, rfl, le_rfl, fun _ hl => hl⟩
  by_cases hgrace : c = .graceDeadlineExpires
  · subst hgrace
    obtain rfl | ⟨-, rfl⟩ := exec_graceDeadlineExpires hx
    · exact ⟨rfl, rfl, le_rfl, fun _ hl => hl⟩
    · have h := s.halt_moves
      exact ⟨h.now, h.pending, h.choices.ge, fun _ => h.latch⟩
  · have h := exec_onward hx hpower hline hgrace
    exact ⟨h.now, h.pending, h.choices, fun _ => h.latch⟩

/-- No expiry is a power-on. -/
theorem powerOn_not_due (s : State) : Instr.powerOn ∉ s.dueCommands := by
  intro h
  have hdue := (dueExpiriesAreTheExpiredDeadlines s .powerOn).mp h
  simp at hdue

/-- Settles O4: every command goes onward, the resets too in what this asks. -/
theorem commandsLeaveClockAndQueue : Obligations.CommandsLeaveClockAndQueue := by
  intro c s t hx
  obtain ⟨hnow, hpending, hchoices, -⟩ := exec_keeps hx
  exact ⟨hnow, hpending, hchoices⟩

/-- Settles O40: a step runs a command, which keeps the latch unless it is POWER_ON, and no expiry is that. -/
theorem onlyPowerOnClearsTheLatch : Obligations.OnlyPowerOnClearsTheLatch := by
  intro s t hl hs hhead
  cases hp : s.pending with
  | cons c rest =>
    rw [step_of_pending hp] at hs
    obtain ⟨-, -, -, hlatch⟩ := exec_keeps hs
    exact hlatch (fun hc => hhead (by rw [hp, hc]; rfl)) hl
  | nil =>
    obtain ⟨hnone, hone, hmore⟩ := idleStepActsOnADueExpiry s hp
    have hnot := powerOn_not_due s
    match hd : s.dueCommands with
    | [] =>
      rw [hnone hd] at hs
      obtain rfl := Host.Outcome.next.inj hs
      exact hl
    | [c] =>
      rw [hone c hd] at hs
      obtain ⟨-, -, -, hlatch⟩ := exec_keeps hs
      exact hlatch (fun hc => hnot (by rw [hd, hc]; exact List.mem_cons_self)) hl
    | c :: d :: cs =>
      obtain ⟨e, he, hstep⟩ := hmore (by rw [hd]; exact Nat.le_add_left 2 _)
      rw [hstep] at hs
      obtain ⟨-, -, -, hlatch⟩ := exec_keeps hs
      exact hlatch (fun hc => hnot (hc ▸ he)) hl

/-- Settles O41: every other command leaves a decided record alone; the grace deadline's expiry halts a COMMITTED one. -/
theorem commitmentIsNeverTakenBack : Obligations.CommitmentIsNeverTakenBack := by
  intro c s t hd hx hpower hline
  by_cases hgrace : c = .graceDeadlineExpires
  · subst hgrace
    obtain rfl | ⟨hc, rfl⟩ := exec_graceDeadlineExpires hx
    · exact .inl rfl
    · exact .inr ⟨rfl, hc, by rw [s.halt_spec.1]⟩
  · exact .inl ((exec_onward hx hpower hline hgrace).decided hd)

end Sys2Proof.Machine

/-! # Frames read back whole (O52)

One round trip per field of 06 section 6.6, then one per kind of payload; a frame's round trip puts its kind's together. -/

namespace Sys2Proof.Machine

/-! ## Fields -/

@[simp]
theorem bytesWord_bytes (w : Word16) : bytesWord (w.extractLsb' 8 8) (w.extractLsb' 0 8) = w := by
  refine BitVec.eq_of_getLsbD_eq fun i hi => ?_
  unfold bytesWord
  rw [BitVec.getLsbD_append]
  by_cases hlow : i < 8
  · simp [hlow]
  · have hback : 8 + (i - 8) = i := by omega
    have hhigh : i - 8 < 8 := by omega
    simp [hlow, hhigh, hback]

@[simp]
theorem kindOfCode_code (k : FrameKind) : kindOfCode (BitVec.ofNat 4 k.code) = some k := by
  cases k <;> rfl

/-- A signed number of half a word's range survives the word (R120). -/
theorem toInt_ofInt_of_legal {w : Nat} (hw : 10 ≤ w) {x : Int} (hlegal : legalReading x = true) :
    (BitVec.ofInt w x).toInt = x := by
  have hrange : -128 ≤ x ∧ x ≤ 383 := of_decide_eq_true hlegal
  have hpow : (2 : Int) ^ 9 ≤ 2 ^ (w - 1) := by
    gcongr
    · norm_num
    · omega
  exact BitVec.toInt_ofInt_eq_self (by omega) (by omega) (by omega)

@[simp]
theorem verdictOfCode_code (v : Option Verdict) : verdictOfCode (verdictCode v) = some v := by
  rcases v with _ | v
  · rfl
  · cases v <;> rfl

@[simp]
theorem roundStateOfCode_code (r : RoundState) : roundStateOfCode (roundStateCode r) = r := by
  cases r <;> rfl

@[simp]
theorem alarmEventOfCode_code (e : AlarmEvent) : alarmEventOfCode (alarmEventCode e) = e := by
  cases e <;> rfl

theorem verdictCode_lt (v : Option Verdict) : verdictCode v < 4 := by
  rcases v with _ | v
  · decide
  · cases v <;> decide

theorem roundStateCode_lt (r : RoundState) : roundStateCode r < 4 := by
  cases r <;> decide

theorem alarmEventCode_lt (e : AlarmEvent) : alarmEventCode e < 4 := by
  cases e <;> decide

@[simp]
theorem channelOfByte_val (c : Channel) : channelOfByte (BitVec.ofNat 8 c.val) = c := by
  apply Fin.ext
  simp [channelOfByte]

@[simp]
theorem inRange_station (a : Station) : inRange 16 (BitVec.ofNat 8 a.val) = some a := by
  have hval : (BitVec.ofNat 8 a.val).toNat = a.val := by
    rw [BitVec.toNat_ofNat]
    omega
  simp [inRange, hval]

/-! ## Packed bytes and words (R121) -/

/-- A field of the high part of two joined words stands above the low part. -/
theorem extractLsb'_append_high {n m : Nat} (x : BitVec n) (y : BitVec m) (k len : Nat) :
    (x ++ y).extractLsb' (m + k) len = x.extractLsb' k len := by
  refine BitVec.eq_of_getLsbD_eq fun i hi => ?_
  have hhigh : ¬ m + k + i < m := by omega
  have hback : m + k + i - m = k + i := by omega
  simp [BitVec.getLsbD_append, hi, hhigh, hback]

theorem flagsByte_bits (fanA fanB critical held : Bool) :
    (flagsByte fanA fanB critical held).getLsbD 0 = fanA ∧ (flagsByte fanA fanB critical held).getLsbD 1 = fanB ∧
      (flagsByte fanA fanB critical held).getLsbD 2 = critical ∧ (flagsByte fanA fanB critical held).getLsbD 3 = held := by
  cases fanA <;> cases fanB <;> cases critical <;> cases held <;> decide

@[simp]
theorem roundByte_state (r : RoundState) (v : Option Verdict) :
    roundStateOfCode ((roundByte r v).extractLsb' 0 2).toNat = r := by
  have hcode : (roundByte r v).extractLsb' 0 2 = BitVec.ofNat 2 (roundStateCode r) := BitVec.extractLsb'_append_eq_right
  rw [hcode, BitVec.toNat_ofNat, Nat.mod_eq_of_lt (roundStateCode_lt r), roundStateOfCode_code]

@[simp]
theorem roundByte_verdict (r : RoundState) (v : Option Verdict) :
    verdictOfCode ((roundByte r v).extractLsb' 2 2).toNat = some v := by
  have hcode : (roundByte r v).extractLsb' 2 2 = BitVec.ofNat 2 (verdictCode v) :=
    (extractLsb'_append_high _ _ 0 2).trans BitVec.extractLsb'_append_eq_right
  rw [hcode, BitVec.toNat_ofNat, Nat.mod_eq_of_lt (verdictCode_lt v), verdictOfCode_code]

theorem recordWord_channel (r : AlarmRecord) : wordChannel (recordWord r) = r.channel := by
  have hfield : (recordWord r).extractLsb' 13 3 = BitVec.ofNat 3 r.channel.val :=
    calc (recordWord r).extractLsb' 13 3
      _ = (BitVec.ofNat 3 r.channel.val ++ BitVec.ofNat 2 (alarmEventCode r.event) ++ BitVec.ofBool r.needsAck).extractLsb'
            3 3 := extractLsb'_append_high _ _ 3 3
      _ = (BitVec.ofNat 3 r.channel.val ++ BitVec.ofNat 2 (alarmEventCode r.event)).extractLsb' 2 3 :=
          extractLsb'_append_high _ _ 2 3
      _ = (BitVec.ofNat 3 r.channel.val).extractLsb' 0 3 := extractLsb'_append_high _ _ 0 3
      _ = BitVec.ofNat 3 r.channel.val := BitVec.extractLsb'_eq_self
  have hvalue := congrArg BitVec.toNat hfield
  rw [BitVec.extractLsb'_toNat, BitVec.toNat_ofNat, Nat.shiftRight_eq_div_pow,
    Nat.mod_eq_of_lt (show r.channel.val < 2 ^ 3 from r.channel.isLt)] at hvalue
  exact Fin.ext hvalue

theorem recordWord_event (r : AlarmRecord) :
    alarmEventOfCode ((recordWord r).extractLsb' 11 2).toNat = r.event := by
  have hfield : (recordWord r).extractLsb' 11 2 = BitVec.ofNat 2 (alarmEventCode r.event) :=
    calc (recordWord r).extractLsb' 11 2
      _ = (BitVec.ofNat 3 r.channel.val ++ BitVec.ofNat 2 (alarmEventCode r.event) ++ BitVec.ofBool r.needsAck).extractLsb'
            1 2 := extractLsb'_append_high _ _ 1 2
      _ = (BitVec.ofNat 3 r.channel.val ++ BitVec.ofNat 2 (alarmEventCode r.event)).extractLsb' 0 2 :=
          extractLsb'_append_high _ _ 0 2
      _ = BitVec.ofNat 2 (alarmEventCode r.event) := BitVec.extractLsb'_append_eq_right
  rw [hfield, BitVec.toNat_ofNat, Nat.mod_eq_of_lt (alarmEventCode_lt r.event), alarmEventOfCode_code]

theorem recordWord_needsAck (r : AlarmRecord) : (recordWord r).getLsbD 10 = r.needsAck := by
  have hmiddle : ∀ (x : BitVec 5) (b : Bool) (y : BitVec 10), (x ++ BitVec.ofBool b ++ y).getLsbD 10 = b := fun x b y => by
    rw [BitVec.getLsbD_append, BitVec.getLsbD_append]
    simp
  exact hmiddle _ _ _

theorem recordWord_reading {r : AlarmRecord} (hlegal : legalReading r.reading = true) :
    ((recordWord r).extractLsb' 0 10).toInt = r.reading := by
  have hfield : (recordWord r).extractLsb' 0 10 = BitVec.ofInt 10 r.reading := BitVec.extractLsb'_append_eq_right
  rw [hfield]
  exact toInt_ofInt_of_legal (by decide) hlegal

/-- A valid record survives its word (R115, R121). -/
theorem wordRecord_recordWord {r : AlarmRecord} (hvalid : validRecord r = true) : wordRecord (recordWord r) = r := by
  have hlegal : legalReading r.reading = true := (Bool.and_eq_true_iff.mp hvalid).1
  unfold wordRecord
  rw [recordWord_channel, recordWord_event, recordWord_needsAck, recordWord_reading hlegal]

/-! ## Payloads (R115, R121) -/

theorem readRecords_bytes {rs : List AlarmRecord} (hvalid : rs.all validRecord = true) :
    readRecords (rs.flatMap fun r => wordBytes (recordWord r)) = some rs := by
  induction rs with
  | nil => rfl
  | cons r rs ih =>
    obtain ⟨hr, hrs⟩ : validRecord r = true ∧ rs.all validRecord = true := by simpa using hvalid
    simp only [wordBytes] at ih ⊢
    simp [readRecords, ih hrs, wordRecord_recordWord hr]

theorem readPairs_bytes (ps : List AckPair) : readPairs (ps.flatMap pairBytes) = some ps := by
  induction ps with
  | nil => rfl
  | cons p ps ih => simp [readPairs, pairBytes, ih]

theorem readStatus_bytes (f : StatusFields) :
    readStatus f.demand f.raised f.unacked f.faulted (flagsByte f.fanAFailed f.fanBFailed f.critical f.shutdownHeld)
      f.roundNumber (roundByte f.roundState f.verdict) (f.proposers.extractLsb' 8 8) (f.proposers.extractLsb' 0 8)
      (f.signature.extractLsb' 8 8) (f.signature.extractLsb' 0 8) = some f := by
  obtain ⟨hfanA, hfanB, hcritical, hheld⟩ := flagsByte_bits f.fanAFailed f.fanBFailed f.critical f.shutdownHeld
  unfold readStatus
  rw [hfanA, hfanB, hcritical, hheld, roundByte_state, roundByte_verdict, bytesWord_bytes, bytesWord_bytes]
  rfl

/-- A valid frame's payload reads back as its contents. -/
theorem readPayload_payloadOf {f : Frame} (hvalid : validFrame f = true) :
    readPayload f.kind (payloadOf f) = some f := by
  cases f with
  | join g d => exact congrArg (fun w => some (FrameOf.join w d)) (bytesWord_bytes g)
  | status f => exact congrArg (Option.map FrameOf.status) (readStatus_bytes f)
  | alarm rs =>
    have hrecords : rs.all validRecord = true := (Bool.and_eq_true_iff.mp hvalid).2
    exact congrArg (Option.map FrameOf.alarm) (readRecords_bytes hrecords)
  | ack ps => exact congrArg (Option.map FrameOf.ack) (readPairs_bytes ps)
  | propose r c x =>
    have hreading : (bytesWord ((BitVec.ofInt 16 x).extractLsb' 8 8) ((BitVec.ofInt 16 x).extractLsb' 0 8)).toInt = x := by
      rw [bytesWord_bytes]
      exact toInt_ofInt_of_legal (by decide) hvalid
    exact congrArg₂ (fun c x => some (FrameOf.propose r c x)) (channelOfByte_val c) hreading
  | vote r v => cases v <;> rfl
  | withdraw r => rfl
  | commit r cs => exact congrArg (fun w => some (FrameOf.commit r w)) (bytesWord_bytes cs)
  | leave => rfl

/-- Settles O52: class, kind and source survive their fields, and the payload is read back kind by kind. -/
theorem framesReadBackWhole : Obligations.FramesReadBackWhole := by
  intro a f hvalid
  simp [decodeRaw, encodeRaw, readPayload_payloadOf hvalid, hvalid]

end Sys2Proof.Machine

/-! # A frame's bits read back whole (O53)

Taking field bits off the wire undoes stuffing wherever the fields are cut; a field's bits spell its value; so the header, the
payload and the check of 07 are each met again by the reception that reads them. -/

namespace Sys2Proof.Machine

/-! ## Taking bits off the wire undoes stuffing (R126) -/

/-- After a longest run, whatever bits follow have the opposite bit before them. -/
theorem stuff_longest (lvl : Bool) (l : List Bool) : stuff lvl longestRun l = (!lvl) :: stuff (!lvl) 1 l := by
  cases l <;> rfl

theorem stuff_cons_of_ne {run : Nat} (hrun : run ≠ longestRun) (lvl b : Bool) (l : List Bool) :
    stuff lvl run (b :: l) = b :: stuff b (nextRun lvl run b) l := by
  simp [stuff, hrun]

theorem stuff_nil_of_ne {run : Nat} (hrun : run ≠ longestRun) (lvl : Bool) : stuff lvl run [] = [] := by
  simp [stuff, hrun]

/-- A stuff bit is taken off without being counted. -/
theorem unstuff_longest (n : Nat) (lvl : Bool) (rest : List Bool) :
    unstuff n lvl longestRun ((!lvl) :: rest) = unstuff n (!lvl) 1 rest := by
  simp [unstuff]

theorem unstuff_zero_of_ne {run : Nat} (hrun : run ≠ longestRun) (lvl : Bool) (l : List Bool) :
    unstuff 0 lvl run l = .done [] lvl run l := by
  cases l <;> simp [unstuff, hrun]

theorem unstuff_succ_of_ne {run : Nat} (hrun : run ≠ longestRun) (n : Nat) (lvl b : Bool) (rest : List Bool) :
    unstuff (n + 1) lvl run (b :: rest) = (unstuff n b (nextRun lvl run b) rest).cons b := by
  simp [unstuff, hrun]

/-- Of the stuffed bits `l ++ more`, taking off as many as `l` holds gives `l`, and leaves the stuffed `more`. -/
def TakesOff (lvl : Bool) (run : Nat) (l more tail : List Bool) : Prop :=
  ∃ lvl' run', run' ≠ longestRun ∧
    unstuff l.length lvl run (stuff lvl run (l ++ more) ++ tail) = .done l lvl' run' (stuff lvl' run' more ++ tail)

theorem TakesOff.of_longest {lvl : Bool} {l more tail : List Bool} (h : TakesOff (!lvl) 1 l more tail) :
    TakesOff lvl longestRun l more tail := by
  obtain ⟨lvl', run', hrun', heq⟩ := h
  refine ⟨lvl', run', hrun', ?_⟩
  rw [stuff_longest, List.cons_append, unstuff_longest, heq]

/-- It is enough to take bits off where no stuff bit is due. -/
theorem takesOff_of_ne {l more tail : List Bool} (h : ∀ lvl run, run ≠ longestRun → TakesOff lvl run l more tail)
    (lvl : Bool) (run : Nat) : TakesOff lvl run l more tail := by
  by_cases hrun : run = longestRun
  · rw [hrun]
    exact (h (!lvl) 1 (by decide)).of_longest
  · exact h lvl run hrun

/-- Taking field bits off undoes stuffing, wherever the fields are cut. -/
theorem unstuff_stuff (l more tail : List Bool) (lvl : Bool) (run : Nat) : TakesOff lvl run l more tail := by
  induction l generalizing lvl run with
  | nil =>
    exact takesOff_of_ne (l := []) (fun lvl run hrun => ⟨lvl, run, hrun, unstuff_zero_of_ne hrun lvl _⟩) lvl run
  | cons b l ih =>
    refine takesOff_of_ne (fun lvl run hrun => ?_) lvl run
    obtain ⟨lvl', run', hrun', heq⟩ := ih b (nextRun lvl run b)
    refine ⟨lvl', run', hrun', ?_⟩
    rw [List.cons_append, stuff_cons_of_ne hrun, List.cons_append, List.length_cons, unstuff_succ_of_ne hrun, heq]
    rfl

/-! ## A field's bits spell its value (R119) -/

@[simp]
theorem length_bitsOf {w : Nat} (x : BitVec w) : (bitsOf x).length = w := by
  simp [bitsOf]

theorem valueOf_concat (l : List Bool) (b : Bool) : valueOf (l ++ [b]) = 2 * valueOf l + b.toNat := by
  simp [valueOf]

/-- The last bit of a field is its lowest; those before it spell the rest. -/
theorem bitsOf_succ {w : Nat} (x : BitVec (w + 1)) : bitsOf x = bitsOf (x.extractLsb' 1 w) ++ [x.getLsbD 0] := by
  have hlast : x.getMsbD (Fin.last w).val = x.getLsbD 0 := by simp [BitVec.getMsbD]
  have hbefore : ∀ i : Fin w, x.getMsbD i.castSucc.val = (x.extractLsb' 1 w).getMsbD i.val := fun i => by
    have hi := i.isLt
    have hback : w - i.val = 1 + (w - 1 - i.val) := by omega
    have hlow : w - 1 - i.val < w := by omega
    have hhere : i.val < w + 1 := by omega
    simp [BitVec.getMsbD, hback, hlow, hhere]
  unfold bitsOf
  rw [List.finRange_succ_last, List.map_append, List.map_map, List.map_singleton, hlast]
  exact congrArg (· ++ [x.getLsbD 0]) (List.map_congr_left fun i _ => hbefore i)

@[simp]
theorem valueOf_bitsOf {w : Nat} (x : BitVec w) : valueOf (bitsOf x) = x.toNat := by
  induction w with
  | zero => exact (BitVec.toNat_of_zero_length rfl x).symm
  | succ w ih =>
    have hhigh : (x.extractLsb' 1 w).toNat = x.toNat / 2 := by
      have hx := x.isLt
      rw [BitVec.extractLsb'_toNat, Nat.shiftRight_eq_div_pow, pow_one, Nat.mod_eq_of_lt (by omega)]
    have hlow : (x.getLsbD 0).toNat = x.toNat % 2 := by
      rw [BitVec.getLsbD, Nat.testBit_zero]
      rcases Nat.mod_two_eq_zero_or_one x.toNat with h | h <;> simp [h]
    rw [bitsOf_succ, valueOf_concat, ih, hhigh, hlow]
    omega

theorem length_payloadBits (p : List Byte) : (p.flatMap bitsOf).length = 8 * p.length := by
  induction p with
  | nil => rfl
  | cons b p ih => simp [ih]; omega

/-- A payload's bits spell its bytes. -/
theorem bytesOf_payloadBits (p : List Byte) : bytesOf p.length (p.flatMap bitsOf) = p := by
  induction p with
  | nil => rfl
  | cons b p ih =>
    have hfirst : (bitsOf b ++ p.flatMap bitsOf).take 8 = bitsOf b := List.take_left' (length_bitsOf b)
    have hothers : (bitsOf b ++ p.flatMap bitsOf).drop 8 = p.flatMap bitsOf := List.drop_left' (length_bitsOf b)
    rw [List.flatMap_cons, List.length_cons, bytesOf, hfirst, hothers, ih, valueOf_bitsOf, BitVec.ofNat_toNat,
      BitVec.setWidth_eq]

/-! ## The header (R119) -/

/-- The field bits before the payload: key, kind and length. -/
def headerBits (w : RawFrame) : List Bool :=
  bitsOf w.cls ++ bitsOf w.source ++ bitsOf w.kind ++ bitsOf (BitVec.ofNat 6 w.payload.length)

theorem checkedBits_eq (w : RawFrame) : checkedBits w = headerBits w ++ w.payload.flatMap bitsOf := rfl

theorem length_headerBits (w : RawFrame) : (headerBits w).length = 17 := by
  simp [headerBits]

theorem headerBits_length {w : RawFrame} (hlen : w.payload.length ≤ 63) :
    valueOf ((headerBits w).drop 11) = w.payload.length := by
  have hfield : (headerBits w).drop 11 = bitsOf (BitVec.ofNat 6 w.payload.length) := List.drop_left' (by simp)
  rw [hfield, valueOf_bitsOf, BitVec.toNat_ofNat]
  exact Nat.mod_eq_of_lt (by omega)

/-- Header and payload bits spell the frame they are of. -/
theorem rawOf_fields {w : RawFrame} (hlen : w.payload.length ≤ 63) :
    rawOf (headerBits w) (w.payload.flatMap bitsOf) = w := by
  have hcls : (headerBits w).take 3 = bitsOf w.cls := by
    simp [headerBits]
  have hsource : ((headerBits w).drop 3).take 4 = bitsOf w.source := by
    simp [headerBits]
  have hkind : ((headerBits w).drop 7).take 4 = bitsOf w.kind := by
    have hbefore : (headerBits w).drop 7 = bitsOf w.kind ++ bitsOf (BitVec.ofNat 6 w.payload.length) := by
      unfold headerBits
      rw [List.append_assoc (bitsOf w.cls ++ bitsOf w.source)]
      exact List.drop_left' (by simp)
    rw [hbefore]
    exact List.take_left' (length_bitsOf w.kind)
  unfold rawOf
  rw [headerBits_length hlen, bytesOf_payloadBits, hcls, hsource, hkind]
  simp

/-! ## Reception (R137, R138) -/

theorem readEndMark_endMark (w : RawFrame) : readEndMark w endMark = .received w := rfl

/-- Settles O53: header, payload and check are taken off in turn, and the end mark is left. -/
theorem wireBitsReadBackWhole : Obligations.WireBitsReadBackWhole := by
  intro w hlen
  have hbits : (wireBits w).drop 1 = stuff false 1 (headerBits w ++ (w.payload.flatMap bitsOf ++
      bitsOf (frameCheck (checkedBits w)))) ++ endMark := by
    rw [← List.append_assoc, ← checkedBits_eq]
    rfl
  obtain ⟨lvl₁, run₁, -, hheader⟩ := unstuff_stuff (headerBits w)
    (w.payload.flatMap bitsOf ++ bitsOf (frameCheck (checkedBits w))) endMark false 1
  obtain ⟨lvl₂, run₂, -, hpayload⟩ := unstuff_stuff (w.payload.flatMap bitsOf)
    (bitsOf (frameCheck (checkedBits w))) endMark lvl₁ run₁
  obtain ⟨lvl₃, run₃, hrun₃, hcheck⟩ := unstuff_stuff (bitsOf (frameCheck (checkedBits w))) [] endMark lvl₂ run₂
  rw [length_headerBits] at hheader
  rw [length_payloadBits, ← headerBits_length hlen] at hpayload
  rw [length_bitsOf, List.append_nil, stuff_nil_of_ne hrun₃, List.nil_append] at hcheck
  unfold reception
  rw [hbits, hheader]
  dsimp only
  rw [hpayload]
  dsimp only
  rw [hcheck]
  dsimp only
  rw [if_pos (by rw [checkedBits_eq]), rawOf_fields hlen, readEndMark_endMark]

end Sys2Proof.Machine
